-- ==== Sys2Proof/Word.lean ====
section
/-! DEFINITION. The word types of the EPE: 32-bit host registers, addresses and clock, 8-bit transport bytes (R12). -/

namespace Sys2Proof

/-- Host registers, frame-buffer addresses and NOW are 32 bits wide (R12). -/
abbrev Word := BitVec 32

/-- Transport and frame-buffer bytes are 8 bits wide (R12). -/
abbrev Byte := BitVec 8

end Sys2Proof
end

