-- ==== Sys2Proof/Config.lean ====
section
/-! DEFINITION. What one EPE instance fixes (the parameter set of R10) and what the spec leaves open for ever
(the free values: opaque constants with no body). -/

namespace Sys2Proof

/-- The source's UpdateMode (R78). -/
inductive Mode where
  | full
  | partialUpd
  deriving DecidableEq, Repr, Inhabited

/-- The four stage kinds of R97. -/
inductive StageKind where
  | comp
  | white
  | inverse
  | normal
  deriving DecidableEq, Repr, Inhabited

/-- The six output lines of R42. -/
inductive LineName where
  | cs
  | reset
  | discharge
  | enable
  | border
  | ioEnable
  deriving DecidableEq, Repr, Inhabited

/-- The three self-test checks of R118, in the order they run. -/
inductive Check where
  | driverId
  | breakage
  | dcLevel
  deriving DecidableEq, Repr, Inhabited

/-- LINE_LAYOUT: the source's order of the parts of a line, or the alternative R104 allows. -/
inductive Layout where
  | scanDataDummy
  | evenScanOddDummy
  deriving DecidableEq, Repr, Inhabited

/-- The agents of R13, the reset input of R163 and the short transport of R62: who may take the next step. -/
inductive Turn where
  | host
  | engine
  | clock
  /-- the platform asserts RST (R163) -/
  | rst
  /-- the transport stops inside a writeBuffer (R62, 93 U8) -/
  | short
  deriving DecidableEq, Repr, Inhabited

/-- The parameter set of R10. The widths of the fields are those of R11, R12, R113 and R114, so the ranges of R11
hold by type; `Params.wf` says the rest of R11. -/
structure Params where
  driveBlack : BitVec 2
  driveWhite : BitVec 2
  driveNoChange : BitVec 2
  pixelOneIsBlack : Bool
  scanPattern : Vector Byte 4
  dummyByte : Byte
  dummyLineFill : Byte
  lineLayout : Layout
  dataHdr : Byte
  readHdr : Byte
  readFill : Byte
  idxLine : Byte
  lineCommit : Option (Byte × Byte)
  idxDriverId : Byte
  idxBreakage : Byte
  idxDc : Byte
  idxOsc : Byte
  valOscOn : Byte
  valOscOff : Byte
  idxCp : Byte
  valCpOn : Byte
  valCpOff : Byte
  idxTxDone : Byte
  valTxDone : Byte
  tPwrOn : Word
  tRstAssert : Word
  tRstRelease : Word
  tCpSettle : Word
  tDischarge : Word
  busyPoll : Word
  busyTimeoutReset : Word
  factor10 : Vector (BitVec 16) 8
  scaleFull : BitVec 16
  scalePartial : BitVec 16
  stagesFull : List StageKind
  stagesPartial : List StageKind
  deriving DecidableEq, Repr

namespace Config

/-- FREE VALUE (R13, log 3): which agent takes the turn numbered n when the schedule names none. -/
opaque freeTurn : Nat → Turn

/-- FREE VALUE (R56, R60, R66, log 5 and 8): a byte the environment answers, or the byte of an unbacked address. -/
opaque freeByte : Nat → Byte

/-- FREE VALUE (R63, log 5): a busy level the panel shows. -/
opaque freeBusy : Nat → Bool

/-- FREE VALUE (R72, log 9): which of the admitted bytes a racing frame-buffer read returns. -/
opaque freePick : Nat → Nat

/-- FREE VALUE (R48, 93 U19, log 17): where the platform places the register window; nothing in the EPE depends on it.
DESIGN CHOICE (log 17): it is 32 bits wide, for which R48 and R12 give no width. -/
opaque regBase : Word

end Config

end Sys2Proof
end

