-- ==== Sys2Proof/Machine/RefConfig.lean ====
section
/-! DEFINITION. The reference parameter set REFCFG of R10. -/

namespace Sys2Proof.Machine

/-- REFCFG, the reference configuration of R10. The values are the spec's own (log 26). -/
def refcfg : Params where
  driveBlack := 0b11
  driveWhite := 0b10
  driveNoChange := 0b01
  pixelOneIsBlack := true
  scanPattern := #v[0xC0, 0x30, 0x0C, 0x03]
  dummyByte := 0x00
  dummyLineFill := 0x55
  lineLayout := .scanDataDummy
  dataHdr := 0x72
  readHdr := 0x73
  readFill := 0x00
  idxLine := 0x0A
  lineCommit := none
  idxDriverId := 0x00
  idxBreakage := 0x0F
  idxDc := 0x0F
  idxOsc := 0x07
  valOscOn := 0xD1
  valOscOff := 0x01
  idxCp := 0x05
  valCpOn := 0x0F
  valCpOff := 0x00
  idxTxDone := 0x02
  valTxDone := 0x24
  tPwrOn := 5
  tRstAssert := 5
  tRstRelease := 5
  tCpSettle := 240
  tDischarge := 150
  busyPoll := 1
  busyTimeoutReset := 1000
  factor10 := #v[170, 120, 80, 40, 30, 20, 10, 7]
  scaleFull := 630
  scalePartial := 630
  stagesFull := [.comp, .white, .inverse, .normal]
  stagesPartial := [.comp, .white, .inverse, .normal]

end Sys2Proof.Machine
end

