-- ==== Sys2Proof/Machine/State.lean ====
section
/-! DEFINITION. The state of the EPE and of the agents around it, as plain data (10_state.md, R13), why a step may
stop, and the state after reset (R47, R163). -/

namespace Sys2Proof.Machine

/-- The PanelSession state (R25). -/
inductive Session where
  | off
  | poweringUp
  | ready
  | poweringDown
  | faulted
  deriving DecidableEq, Repr, Inhabited

/-- The outcome of a command (R29). -/
inductive Kind where
  | ok
  | selftestFailure
  | commTimeout
  | notReady
  | invalidInput
  | illegalCommand
  deriving DecidableEq, Repr, Inhabited

/-- The steps of one BUSY_WAIT (R133). -/
inductive WaitPhase where
  /-- T_WAIT0 <- NOW comes next -/
  | start
  /-- the busy sample comes next -/
  | sample
  /-- the sample was 1 within the bound: the poll delay's event comes next -/
  | delay
  /-- the poll delay holds -/
  | hold
  deriving DecidableEq, Repr, Inhabited

/-- The engine sequencer position (R37, with DISPATCH of R87). `ev` is the index of the next event of the current
frame; the k and r of STAGE(k, r) and WAIT(k, r) are K and R of the update context (log 10). -/
inductive Pc where
  | idle
  | dispatch
  /-- PD(i): step i of the power-down list (R121) -/
  | pd (i ev : Nat)
  /-- PU(i): step i of the power-up list (R120) -/
  | pu (i ev : Nat)
  /-- the Off path of R122, reached from the power-down phase of R123 -/
  | puStart
  /-- the latch of R130 comes next -/
  | latch
  /-- a stage begins: T_STAGE0 <- NOW comes next (R131) -/
  | stageStart
  /-- STAGE(K, R): the pixel source of ENCODE_LINE comes next (R106) -/
  | row
  /-- STAGE(K, R): MemRead of byte b comes next (R106) -/
  | fetch (b : Nat)
  /-- STAGE(K, R): LINE_BUF <- line(...) comes next (R106) -/
  | encode
  /-- STAGE(K, R): event ev of LINE_TX comes next (R67) -/
  | line (ev : Nat)
  /-- WAIT(K, R) -/
  | wait (w : WaitPhase)
  /-- the NOW read after row 175's wait comes next (R131) -/
  | passEnd
  /-- HANDSHAKE -/
  | handshake (ev : Nat)
  /-- SETTLE -/
  | settle (ev : Nat)
  /-- WAIT(0, 0) -/
  | settleWait (w : WaitPhase)
  /-- COMPLETE: `complete(kind, check, stage, line)` comes next (R89) -/
  | complete (kind : Kind) (check : BitVec 2) (stage : BitVec 4) (line : BitVec 8)
  deriving DecidableEq, Repr, Inhabited

/-- The command latch CUR (R38). -/
structure Cur where
  op : BitVec 4
  mode : BitVec 1
  temp : BitVec 16
  fbb : Word
  fbl : Word
  tmo : Word
  deriving DecidableEq, Repr, Inhabited

/-- The update context (R39). -/
structure UpdateCtx where
  modeL : Mode
  tempL : BitVec 16
  bucketL : BitVec 3
  stageMsL : Word
  fbBaseL : Word
  timeoutL : Word
  k : BitVec 4
  r : BitVec 8
  tStage0 : Word
  tWait0 : Word
  deriving DecidableEq, Repr, Inhabited

/-- The state elements whose value after a reset is unspecified (R47, R163): CUR, the update context, LINE_BUF with
the row it is built from, the byte of the read in progress, and the delay context. -/
structure Contexts where
  cur : Cur
  upd : UpdateCtx
  lineBuf : Vector Byte 111
  rowBuf : Vector Byte 33
  rx : Byte
  tDelay0 : Word
  nDelay : Word
  deriving DecidableEq, Repr, Inhabited

end Sys2Proof.Machine

namespace Sys2Proof.Config

/-- FREE VALUE (R163, 93 U13, log 7): the unspecified state elements after a RST. -/
opaque freeContext : Nat → Sys2Proof.Machine.Contexts

end Sys2Proof.Config

namespace Sys2Proof.Machine

/-- The self-test record of STATUS (R24, R27). -/
structure SelfTest where
  valid : Bool
  driverIdValid : Bool
  breakageDetected : Bool
  dcLevelOk : Bool
  evalDriverId : Bool
  evalBreakage : Bool
  evalDc : Bool
  deriving DecidableEq, Repr

/-- The six output line levels (R42): true is asserted. -/
structure Lines where
  cs : Bool
  reset : Bool
  discharge : Bool
  enable : Bool
  border : Bool
  ioEnable : Bool
  deriving DecidableEq, Repr

/-- The transport events (R60). -/
inductive Event where
  | spiByte (tx rx : Byte)
  | setLine (name : LineName) (level : Bool)
  | readBusy (level : Bool)
  | delay (n : Word)
  deriving DecidableEq, Repr

/-- One operation of the HOST (R86, R13). `bytes` is the width of the access. -/
inductive HostOp where
  /-- RD: a read of `bytes` bytes at an offset of the register window -/
  | rd (off bytes : Nat)
  /-- WR: a write of `bytes` bytes at an offset of the register window -/
  | wr (off bytes : Nat) (v : Word)
  /-- WAIT_IDLE: read STATUS until BUSY is 0 -/
  | waitIdle
  /-- EXPECT: a read, and the checker's assertion about it -/
  | expect (off : Nat) (mask v : Word)
  /-- the host writes a byte of frame-buffer memory -/
  | memWr (addr : Word) (v : Byte)
  deriving DecidableEq, Repr

/-- What one host read gave: the offset, the value, and whether the checker's assertion holds (true for a plain RD). -/
structure HostObs where
  off : Nat
  value : Word
  holds : Bool
  deriving DecidableEq, Repr

/-- The host memory behind the frame-buffer space (R49, R56): the backed bytes, addresses strictly rising. An address
with no entry is not backed by memory. -/
abbrev Memory := List Host.Cell

/-- The state of the machine. Each field's docstring names the rule it comes from. -/
structure State where
  /-- the parameters of R10; configuration, never written (R44) -/
  par : Params
  /-- PanelSession (R36), read as STATUS.SESSION -/
  session : Session
  /-- STATUS.BUSY (R26) -/
  busy : Bool
  /-- STATUS.OVERRUN (R24, R93) -/
  overrun : Bool
  /-- the self-test record of STATUS (R27) -/
  selfTest : SelfTest
  /-- RESULT (R28) -/
  result : Word
  /-- FB_BASE (R30) -/
  fbBase : Word
  /-- FB_LEN (R31) -/
  fbLen : Word
  /-- BUSY_TIMEOUT_MS (R32) -/
  busyTimeout : Word
  /-- LAST_TEMP (R33) -/
  lastTemp : Word
  /-- STAGE_MS (R34) -/
  stageMs : Word
  /-- ST_RAW (R35) -/
  stRaw : Word
  /-- the engine sequencer position (R37) -/
  pc : Pc
  /-- the command latch (R38) -/
  cur : Cur
  /-- the update context (R39) -/
  upd : UpdateCtx
  /-- LINE_BUF (R40) -/
  lineBuf : Vector Byte 111
  /-- the source bytes S of ENCODE_LINE (R106) -/
  rowBuf : Vector Byte 33
  /-- the byte v of the latest read exchange (R66) -/
  rx : Byte
  /-- T_DELAY0 (R41) -/
  tDelay0 : Word
  /-- N_DELAY (R41) -/
  nDelay : Word
  /-- the output line levels (R42) -/
  lines : Lines
  /-- NOW (R43) -/
  now : Word
  /-- the frame-buffer memory of the host (R49) -/
  mem : Memory
  /-- the bytes the host has overwritten since the running command's CMD write, newest first; `none` where the address
  was not backed (R72) -/
  race : List (Nat × Option Byte)
  /-- the transport events, newest first (R6, R70) -/
  events : List Event
  /-- the bytes read from the frame buffer, newest first (R6, R59) -/
  fbReads : List Host.Cell
  /-- the HOST's operations still to come (R13, R86) -/
  host : List HostOp
  /-- what the HOST's reads gave, newest first (R86) -/
  hostLog : List HostObs
  /-- the bytes the panel answers to the read exchanges to come (R66); free values when empty -/
  rxQueue : List Byte
  /-- the busy levels the panel shows at the samples to come (R63); free values when empty -/
  busyQueue : List Bool
  /-- the agents whose turns come next (R13); free values when empty -/
  turns : List Turn
  /-- the model's own counter: how many free values have been drawn (log 19) -/
  draws : Nat
  deriving DecidableEq, Repr

/-- Why the machine stops. The EPE's own faults are command outcomes (R142), not these. -/
inductive Fault where
  /-- raised by the SHORT turn: the transport took fewer bytes of a writeBuffer than asked, for which the model has no
  move (R62, 93 U8). Safe: the model stops where the spec gives no effect. -/
  | shortWrite
  /-- raised by a command whose engine position no rule gives it: a position of another command, or a stage number with
  no entry in the stage list. Safe: no run from reset stands there (log 12). -/
  | noRule
  deriving DecidableEq, Repr

/-- Why the machine gives no meaning. -/
inductive Refusal where
  /-- raised by an arm of exec whose instruction has no meaning yet. Safe. -/
  | notModelled (mnemonic : String)
  /-- raised by a host access that is not one aligned 32-bit word of the 64-byte window: outside the EPE's interface,
  and the model refuses the host program that makes it (R52, 93 U4). Safe. -/
  | badHostAccess
  /-- raised by every step under a parameter set that is not well formed (R11, 93 U16). Safe. -/
  | badParameters
  deriving DecidableEq, Repr

/-- CUR after reset: zero (DESIGN CHOICE, log 7). -/
def Cur.reset : Cur := ⟨0, 0, 0, 0, 0, 0⟩

/-- The update context after reset: zero (DESIGN CHOICE, log 7). -/
def UpdateCtx.reset : UpdateCtx := ⟨.full, 0, 0, 0, 0, 0, 0, 0, 0, 0⟩

/-- A self-test record with every bit 0 (R27, R47). -/
def SelfTest.cleared : SelfTest := ⟨false, false, false, false, false, false, false⟩

/-- Every output line de-asserted (R42, R47). -/
def Lines.down : Lines := ⟨false, false, false, false, false, false⟩

/-- The state right after reset of an instance with parameters p (R47, R163). The unspecified elements are zero
(DESIGN CHOICE, log 6 and 7), no memory is backed (log 8), and nothing is queued (log 3, 4, 5). -/
def State.resetWith (p : Params) : State where
  par := p
  session := .off
  busy := false
  overrun := false
  selfTest := SelfTest.cleared
  result := 0
  fbBase := 0
  fbLen := 0
  busyTimeout := p.busyTimeoutReset
  lastTemp := 0
  stageMs := 0
  stRaw := 0
  pc := .idle
  cur := Cur.reset
  upd := UpdateCtx.reset
  lineBuf := Vector.replicate 111 0
  rowBuf := Vector.replicate 33 0
  rx := 0
  tDelay0 := 0
  nDelay := 0
  lines := Lines.down
  now := 0
  mem := []
  race := []
  events := []
  fbReads := []
  host := []
  hostLog := []
  rxQueue := []
  busyQueue := []
  turns := []
  draws := 0

/-- The machine right after reset, with REFCFG (R47, R164). -/
def State.reset : State := State.resetWith refcfg

end Sys2Proof.Machine
end

