-- ==== Sys2Proof/Machine/Flags.lean ====
section
/-! DEFINITION. The status flags and the packed host registers: STATUS (R24), RESULT (R28), the self-test record (R27)
and ST_RAW (R35), with their codes (R25, R29, R118). -/

namespace Sys2Proof.Machine

/-- STATUS.SESSION's code (R25). -/
def Session.code : Session → BitVec 3
  | .off => 0
  | .poweringUp => 1
  | .ready => 2
  | .poweringDown => 3
  | .faulted => 4

/-- RESULT.KIND's code (R29). -/
def Kind.code : Kind → BitVec 3
  | .ok => 0
  | .selftestFailure => 1
  | .commTimeout => 2
  | .notReady => 3
  | .invalidInput => 4
  | .illegalCommand => 5

/-- RESULT.CHECK's code (R118). -/
def checkCode : Check → BitVec 2
  | .driverId => 0
  | .breakage => 1
  | .dcLevel => 2

/-- The mask of a check (R118). -/
def checkMask : Check → Byte
  | .driverId => 0x0F
  | .breakage => 0x80
  | .dcLevel => 0x40

/-- The expected value of a check (R118). -/
def checkExpected : Check → Byte
  | .driverId => 0x02
  | .breakage => 0x80
  | .dcLevel => 0x00

/-- The panel register a check reads (R118). -/
def checkIndex (p : Params) : Check → Byte
  | .driverId => p.idxDriverId
  | .breakage => p.idxBreakage
  | .dcLevel => p.idxDc

/-- Whether the byte v passes check c (R118). -/
def checkPasses (c : Check) (v : Byte) : Bool := v &&& checkMask c == checkExpected c

/-- The record after check c is evaluated with outcome `pass` (R119). -/
def SelfTest.evaluate (st : SelfTest) (c : Check) (pass : Bool) : SelfTest :=
  match c with
  | .driverId => { st with evalDriverId := true, driverIdValid := pass }
  | .breakage => { st with evalBreakage := true, breakageDetected := !pass }
  | .dcLevel => { st with evalDc := true, dcLevelOk := pass }

/-- ST_RAW[c] <- v (R35, R119): the byte lane of check c. -/
def rawWith (raw : Word) (c : Check) (v : Byte) : Word :=
  match c with
  | .driverId => raw.extractLsb' 8 24 ++ v
  | .breakage => raw.extractLsb' 16 16 ++ v ++ raw.extractLsb' 0 8
  | .dcLevel => raw.extractLsb' 24 8 ++ v ++ raw.extractLsb' 0 16

/-- STATUS as the host reads it (R24); the reserved bits read 0. -/
def statusWord (s : State) : Word :=
  (0 : BitVec 17)
    ++ BitVec.ofBool s.selfTest.evalDc
    ++ BitVec.ofBool s.selfTest.evalBreakage
    ++ BitVec.ofBool s.selfTest.evalDriverId
    ++ BitVec.ofBool s.selfTest.dcLevelOk
    ++ BitVec.ofBool s.selfTest.breakageDetected
    ++ BitVec.ofBool s.selfTest.driverIdValid
    ++ BitVec.ofBool s.selfTest.valid
    ++ (0 : BitVec 3)
    ++ BitVec.ofBool s.overrun
    ++ BitVec.ofBool s.busy
    ++ s.session.code

/-- RESULT as a completion writes it: VALID = 1 and every other bit outside the fields 0 (R28, R89). -/
def resultWord (op : BitVec 4) (kind : Kind) (check : BitVec 2) (stage : BitVec 4) (line : BitVec 8) : Word :=
  (1 : BitVec 1) ++ (0 : BitVec 3) ++ op ++ line ++ (0 : BitVec 4) ++ stage ++ (0 : BitVec 2) ++ check
    ++ (0 : BitVec 1) ++ kind.code

/-- LAST_TEMP as the latch writes it (R33, R130). -/
def lastTempWord (b : BitVec 3) (temp : BitVec 16) : Word := (0 : BitVec 13) ++ b ++ temp

/-- RESULT.KIND of a RESULT word (R28). -/
def resultKind (w : Word) : BitVec 3 := w.extractLsb' 0 3

/-- RESULT.CHECK of a RESULT word (R28). -/
def resultCheck (w : Word) : BitVec 2 := w.extractLsb' 4 2

/-- RESULT.STAGE of a RESULT word (R28). -/
def resultStage (w : Word) : BitVec 4 := w.extractLsb' 8 4

/-- RESULT.LINE of a RESULT word (R28). -/
def resultLine (w : Word) : BitVec 8 := w.extractLsb' 16 8

/-- RESULT.OP of a RESULT word (R28). -/
def resultOp (w : Word) : BitVec 4 := w.extractLsb' 24 4

/-- RESULT.VALID of a RESULT word (R28). -/
def resultValid (w : Word) : BitVec 1 := w.extractLsb' 31 1

end Sys2Proof.Machine
end

