-- ==== Sys2Proof/Machine/Memory.lean ====
section
/-! DEFINITION. The host memory behind the frame-buffer space: reading, writing and the canonical form (R49, R56). -/

namespace Sys2Proof.Machine

/-- The byte host memory holds at an address, or `none` where the address is not backed (R56, log 8). -/
def Memory.read : Memory → Nat → Option Byte
  | [], _ => none
  | (k, v) :: rest, a => if a = k then some v else Memory.read rest a

/-- A host write of one byte. It keeps the addresses strictly rising, and the address is backed from then on (log 24). -/
def Memory.write : Memory → Nat → Byte → Memory
  | [], a, v => [(a, v)]
  | (k, w) :: rest, a, v =>
    if a < k then (a, v) :: (k, w) :: rest
    else if a = k then (a, v) :: rest
    else (k, w) :: Memory.write rest a v

/-- The canonical form: addresses strictly rising, each within the 32-bit frame-buffer space (R49). -/
def Memory.wf (m : Memory) : Bool :=
  decide (m.Pairwise (fun x y => x.1 < y.1)) && m.all (fun c => decide (c.1 < 2 ^ 32))

end Sys2Proof.Machine
end

