-- ==== Sys2Proof/Syntax.lean ====
section
/-! DEFINITION. The command words of the EPE: one constructor per row of spec/opcode_table.json (R76, R81). -/

namespace Sys2Proof

/-- One host command. Every bit of the word is an operand, the ignored ones too, because acceptance copies MODE and
TEMP of every word into CUR (R87) and because no bit may be lost between a word and its meaning. -/
inductive Instr where
  /-- OP 0x0; bits [31:4] are ignored (R91). -/
  | nop (ignored : BitVec 28)
  /-- OP 0x1; bits [31:4] are ignored (R122, R80). -/
  | powerUp (ignored : BitVec 28)
  /-- OP 0x2; bits [31:4] are ignored (R125, R80). -/
  | powerDown (ignored : BitVec 28)
  /-- OP 0x3 with MODE 0: TEMP [31:16], reserved [15:5] (R128). -/
  | updateFull (temp : BitVec 16) (reserved : BitVec 11)
  /-- OP 0x3 with MODE 1: TEMP [31:16], reserved [15:5] (R128). -/
  | updatePartial (temp : BitVec 16) (reserved : BitVec 11)
  /-- OP 0x4..0x7, the OP itself the first operand (R92). -/
  | reserved4to7 (op : BitVec 4) (ignored : BitVec 28)
  /-- OP 0x8..0xF, the OP itself the first operand (R92). -/
  | reserved8toF (op : BitVec 4) (ignored : BitVec 28)
  deriving DecidableEq, Repr

end Sys2Proof
end

