-- ==== Sys2Proof/Decode.lean ====
section
/-! DEFINITION. The decoder, total on any bytes, and the encoder, both written from R76 and R81. The decoder of a
32-bit word is total (R83); the decoder of a byte sequence rejects a sequence shorter than one word, by name. -/

namespace Sys2Proof

/-- OP = w[3:0] (R77). -/
def opField (w : Word) : BitVec 4 := w.extractLsb' 0 4

/-- MODE = w[4] (R78). -/
def modeField (w : Word) : BitVec 1 := w.extractLsb' 4 1

/-- The reserved bits w[15:5] (R80). -/
def reservedField (w : Word) : BitVec 11 := w.extractLsb' 5 11

/-- TEMP = w[31:16] (R79). -/
def tempField (w : Word) : BitVec 16 := w.extractLsb' 16 16

/-- The bits w[31:4] that a word with OP other than 3 ignores (R80). -/
def ignoredField (w : Word) : BitVec 28 := w.extractLsb' 4 28

/-- The decode function of R83, total on every 32-bit word. -/
def decodeWord (w : Word) : Instr :=
  if opField w = 0 then .nop (ignoredField w)
  else if opField w = 1 then .powerUp (ignoredField w)
  else if opField w = 2 then .powerDown (ignoredField w)
  else if opField w = 3 then
    if modeField w = 0 then .updateFull (tempField w) (reservedField w)
    else .updatePartial (tempField w) (reservedField w)
  else if (opField w).toNat < 8 then .reserved4to7 (opField w) (ignoredField w)
  else .reserved8toF (opField w) (ignoredField w)

/-- Why a byte sequence is no command. -/
inductive DecodeError where
  /-- fewer than four bytes: every command has length one 32-bit word (R76) -/
  | truncated
  deriving DecidableEq, Repr

/-- The four bytes of a word as little-endian byte lanes carry them: bit 0 in the byte at the lowest address (R53). -/
def wordBytes (w : Word) : List Byte :=
  [w.extractLsb' 0 8, w.extractLsb' 8 8, w.extractLsb' 16 8, w.extractLsb' 24 8]

/-- Four byte lanes put together, the first the least significant (R53). -/
def bytesWord (b0 b1 b2 b3 : Byte) : Word := b3 ++ b2 ++ b1 ++ b0

/-- The decoder on bytes: one command and the bytes after it. -/
def decodeBytes : List Byte → Except DecodeError (Instr × List Byte)
  | b0 :: b1 :: b2 :: b3 :: rest => .ok (decodeWord (bytesWord b0 b1 b2 b3), rest)
  | _ => .error .truncated

/-- The word of an instruction, from the same fields (R76, R81). -/
def encode : Instr → Word
  | .nop ignored => ignored ++ (0 : BitVec 4)
  | .powerUp ignored => ignored ++ (1 : BitVec 4)
  | .powerDown ignored => ignored ++ (2 : BitVec 4)
  | .updateFull temp reserved => temp ++ reserved ++ (0 : BitVec 1) ++ (3 : BitVec 4)
  | .updatePartial temp reserved => temp ++ reserved ++ (1 : BitVec 1) ++ (3 : BitVec 4)
  | .reserved4to7 op ignored => ignored ++ op
  | .reserved8toF op ignored => ignored ++ op

/-- One row of the opcode map of R81, with the two reserved ranges as opcode_table.json splits them. -/
structure OpcodeRow where
  mnemonic : String
  mask : Word
  pat : Word
  deriving DecidableEq, Repr

/-- The opcode map of R81. -/
def opcodeMap : List OpcodeRow :=
  [ ⟨"NOP", 0x0000000F, 0x00000000⟩,
    ⟨"POWER_UP", 0x0000000F, 0x00000001⟩,
    ⟨"POWER_DOWN", 0x0000000F, 0x00000002⟩,
    ⟨"UPDATE_FULL", 0x0000001F, 0x00000003⟩,
    ⟨"UPDATE_PARTIAL", 0x0000001F, 0x00000013⟩,
    ⟨"RESERVED_4_7", 0x0000000C, 0x00000004⟩,
    ⟨"RESERVED_8_F", 0x00000008, 0x00000008⟩ ]

/-- The row of the opcode map an instruction belongs to. -/
def Instr.mnemonic : Instr → String
  | .nop _ => "NOP"
  | .powerUp _ => "POWER_UP"
  | .powerDown _ => "POWER_DOWN"
  | .updateFull _ _ => "UPDATE_FULL"
  | .updatePartial _ _ => "UPDATE_PARTIAL"
  | .reserved4to7 _ _ => "RESERVED_4_7"
  | .reserved8toF _ _ => "RESERVED_8_F"

/-- The rows of the opcode map whose mask and match admit the word. -/
def rowsOf (w : Word) : List String :=
  (opcodeMap.filter (fun row => w &&& row.mask == row.pat)).map (·.mnemonic)

/-- The instruction of a word of `nbits` bits, read by the decoder from the word's byte lanes. -/
def decodeTableWord (nbits w : Nat) : Option Instr :=
  match decodeBytes (wordBytes (BitVec.ofNat 32 (w % 2 ^ nbits))) with
  | .ok (i, _) => some i
  | .error _ => none

end Sys2Proof
end

