-- ==== Sys2Proof/Machine/Operands.lean ====
section
/-! DEFINITION. The operands of the commands: the fields latched into CUR (R38, R87), the mode, the signed temperature
with its bucket and stage duration (R79, R111, R115), the stage list (R127) and the frame-buffer address (R57). -/

namespace Sys2Proof.Machine

/-- UpdateMode of the MODE bit: 0 = Full, 1 = Partial (R78). -/
def modeOfBit (b : BitVec 1) : Mode := if b = 0 then .full else .partialUpd

/-- CUR as acceptance writes it: the fields of the word and the copies of the three host registers (R87). -/
def curOfWord (w fbb fbl tmo : Word) : Cur where
  op := opField w
  mode := modeField w
  temp := tempField w
  fbb := fbb
  fbl := fbl
  tmo := tmo

/-- The word of the fields CUR holds, the reserved bits 0 (R80: they change nothing). -/
def Cur.word (c : Cur) : Word := c.temp ++ (0 : BitVec 11) ++ c.mode ++ c.op

/-- The command CUR holds (R88, log 22). -/
def Cur.instr (c : Cur) : Instr := decodeWord c.word

/-- The temperature operand in degrees: sext_32 of the 16-bit field (R79). -/
def degrees (temp : BitVec 16) : Int := (temp.signExtend 32).toInt

/-- TEMP_BUCKET (R111): every bucket is upper-inclusive. -/
def bucket (t : Int) : BitVec 3 :=
  if t ≤ -10 then 0
  else if t ≤ -5 then 1
  else if t ≤ 5 then 2
  else if t ≤ 10 then 3
  else if t ≤ 15 then 4
  else if t ≤ 20 then 5
  else if t ≤ 40 then 6
  else 7

/-- SCALE(mode) (R114). -/
def scale (p : Params) : Mode → BitVec 16
  | .full => p.scaleFull
  | .partialUpd => p.scalePartial

/-- FACTOR10[i] (R113). -/
def factor (p : Params) (i : BitVec 3) : BitVec 16 := p.factor10[i.toNat]'i.isLt

/-- STAGE_DURATION (R115): a 32-bit unsigned product and a truncating division. -/
def stageDuration (p : Params) (m : Mode) (i : BitVec 3) : Word :=
  ((scale p m).setWidth 32 * (factor p i).setWidth 32) / 10

/-- STAGES(mode) (R127). -/
def stagesOf (p : Params) : Mode → List StageKind
  | .full => p.stagesFull
  | .partialUpd => p.stagesPartial

/-- The declared length an update asks for: IMAGE_BYTES (R7, R129). -/
def imageBytes : Word := 5808

/-- V_LINES − 1, the last row (R7). -/
def lastRow : BitVec 8 := 175

/-- The address of byte b of row r (R57): it wraps modulo 2^32. -/
def fbAddr (base : Word) (r : BitVec 8) (b : Nat) : Word :=
  base + BitVec.ofNat 32 (33 * r.toNat + b)

/-- Elapsed time: the 32-bit modular difference of R43. -/
def elapsed (now t : Word) : Word := now - t

end Sys2Proof.Machine
end

