-- ==== Sys2Proof/Machine/Ops.lean ====
section
/-! DEFINITION. The shared operations: acceptance (R87), completion and fault report (R89, R142), transport events
(R60 to R67), delays (R64), frame-buffer reads (R56, R72) and reset (R163). -/

namespace Sys2Proof.Machine

/-- The answer of every step that succeeds. -/
abbrev Result := Host.Outcome State Fault Refusal

/-- pc <- target (R16). -/
def State.goto (s : State) (target : Pc) : State := { s with pc := target }

/-! ### Acceptance, completion, fault report -/

/-- Acceptance of a command word while no command runs (R87): CUR, BUSY and pc, and a fresh record of racing writes
(R72: the race concerns writes after this point). -/
def accept (w : Word) (s : State) : State :=
  { s with
    cur := curOfWord w s.fbBase s.fbLen s.busyTimeout
    busy := true
    pc := .dispatch
    race := [] }

/-- complete(kind, check, stage, line) (R89). A fault report is this operation with a non-OK kind (R142): nothing else
is saved, and there is no return from it (R152, R153). -/
def complete (kind : Kind) (check : BitVec 2) (stage : BitVec 4) (line : BitVec 8) (s : State) : State :=
  { s with
    result := resultWord s.cur.op kind check stage line
    busy := false
    pc := .idle
    race := [] }

/-- A fault found while a command runs that leaves the session Faulted: SESSION changes in the step just before the
report (R142, R143), which comes next. -/
def faultSession (kind : Kind) (check : BitVec 2) (stage : BitVec 4) (line : BitVec 8) (s : State) : State :=
  { s with session := .faulted, pc := .complete kind check stage line }

/-- STATUS.{ST_VALID, …, EVAL_*} <- 0; ST_RAW <- 0 (R27). -/
def clearRecord (s : State) : State := { s with selfTest := SelfTest.cleared, stRaw := 0 }

/-! ### Transport events -/

/-- What the engine asks of the transport: the event without the value the environment binds (R60). -/
inductive Act where
  | setLine (name : LineName) (level : Bool)
  /-- a write exchange, rx ignored (R60, 92 D51) -/
  | write (tx : Byte)
  /-- a read exchange: rx is the value (R66) -/
  | read (tx : Byte)
  | delay (n : Word)
  deriving DecidableEq, Repr

/-- The level of one line after SetLine (R42, R60). -/
def setLevel (l : Lines) (name : LineName) (level : Bool) : Lines :=
  match name with
  | .cs => { l with cs := level }
  | .reset => { l with reset := level }
  | .discharge => { l with discharge := level }
  | .enable => { l with enable := level }
  | .border => { l with border := level }
  | .ioEnable => { l with ioEnable := level }

/-- SetLine(name, level): the event and the level (R60). -/
def emitSetLine (name : LineName) (level : Bool) (s : State) : State :=
  { s with events := .setLine name level :: s.events, lines := setLevel s.lines name level }

/-- A write exchange: rx is any byte and changes nothing (R60; 93 U10). -/
def emitWrite (tx : Byte) (s : State) : State :=
  { s with events := .spiByte tx (Config.freeByte s.draws) :: s.events, draws := s.draws + 1 }

/-- A read exchange: rx is the panel's next answer, or any byte where none is queued (R66; 93 U9). -/
def emitRead (tx : Byte) (s : State) : State :=
  match s.rxQueue with
  | v :: rest => { s with events := .spiByte tx v :: s.events, rx := v, rxQueue := rest }
  | [] =>
    { s with
      events := .spiByte tx (Config.freeByte s.draws) :: s.events
      rx := Config.freeByte s.draws
      draws := s.draws + 1 }

/-- Delay(n): the event, then the latch of NOW that the hold is measured from (R64). -/
def emitDelay (n : Word) (s : State) : State :=
  { s with events := .delay n :: s.events, tDelay0 := s.now, nDelay := n }

/-- emit E (R16, R60). -/
def emit (a : Act) (s : State) : State :=
  match a with
  | .setLine name level => emitSetLine name level s
  | .write tx => emitWrite tx s
  | .read tx => emitRead tx s
  | .delay n => emitDelay n s

/-- The busy level of the next sample: the panel's, or any level where none is queued (R63; 93 U9). -/
def busyLevel (s : State) : Bool :=
  match s.busyQueue with
  | b :: _ => b
  | [] => Config.freeBusy s.draws

/-- ReadBusy(b) with the level `busyLevel` (R63). -/
def emitReadBusy (s : State) : State :=
  match s.busyQueue with
  | b :: rest => { s with events := .readBusy b :: s.events, busyQueue := rest }
  | [] => { s with events := .readBusy (Config.freeBusy s.draws) :: s.events, draws := s.draws + 1 }

/-- Whether a delay still holds the engine (R64, R43). That the difference is tested anew at each ENGINE turn, so that a
lifted hold comes back for an ENGINE starved until the difference wraps, is the model's choice (log 30). -/
def held (s : State) : Bool := decide ((elapsed s.now s.tDelay0).toNat < s.nDelay.toNat)

/-! ### Wire frames -/

/-- REG_WRITE(idx, val) (R65). -/
def regWrite (p : Params) (idx val : Byte) : List Act :=
  [ .setLine .cs true, .write 0x70, .write idx, .setLine .cs false,
    .setLine .cs true, .write p.dataHdr, .write val, .setLine .cs false ]

/-- REG_READ(idx) (R66). -/
def regRead (p : Params) (idx : Byte) : List Act :=
  [ .setLine .cs true, .write 0x70, .write idx, .setLine .cs false,
    .setLine .cs true, .write p.readHdr, .read p.readFill, .setLine .cs false ]

/-- The commit write after a line (R67). -/
def commitActs (p : Params) : List Act :=
  match p.lineCommit with
  | none => []
  | some (i, v) => regWrite p i v

/-- The events before the bytes of a line (R67). -/
def lineHead (p : Params) : List Act :=
  [ .setLine .cs true, .write 0x70, .write p.idxLine, .setLine .cs false,
    .setLine .cs true, .write p.dataHdr ]

/-- LINE_TX(L) (R67). -/
def lineTx (p : Params) (l : List Byte) : List Act :=
  lineHead p ++ l.map Act.write ++ [.setLine .cs false] ++ commitActs p

/-- One ENGINE step inside a frame: the event of index `ev`, and the next index; after the last event, `done`. -/
def runFrame (acts : List Act) (ev : Nat) (at_ : Nat → Pc) (done : State → State) (s : State) : State :=
  match acts[ev]? with
  | some a => (emit a s).goto (at_ (ev + 1))
  | none => done s

/-! ### Frame-buffer reads -/

/-- The bytes a read of address a may return, newest first: what memory holds, then, where the host has written since
the CMD write, what each write replaced (R72). `none` stands for an address not backed at that time. -/
def admitted (s : State) (a : Nat) : List (Option Byte) :=
  s.mem.read a :: (s.race.filter (fun e => e.1 == a)).map (·.2)

/-- The one of the admitted bytes that this read takes: the only one where the host kept the contract, else a free
choice (R72, log 9). -/
def chosen (s : State) (a : Nat) : Option Byte :=
  match admitted s a with
  | [only] => only
  | l => (l[Config.freePick s.draws % l.length]?).getD none

/-- The value of MemRead(a, 1): any byte where the address is not backed (R56, log 8). -/
def memByte (s : State) (a : Word) : Byte := (chosen s a.toNat).getD (Config.freeByte s.draws)

/-- MemRead(a, 1): the read is observable (R6), and takes one free value where it needs one. It never faults. -/
def noteRead (a : Word) (s : State) : State :=
  { s with fbReads := (a.toNat, memByte s a) :: s.fbReads, draws := s.draws + 1 }

/-- A host write of one byte of frame-buffer memory. While a command runs, what it replaces stays readable (R72). -/
def hostMemWrite (a : Word) (v : Byte) (s : State) : State :=
  { s with
    mem := s.mem.write a.toNat v
    race := if s.busy then (a.toNat, s.mem.read a.toNat) :: s.race else s.race }

/-! ### Clock and reset -/

/-- A CLOCK step (R43). -/
def clockTick (s : State) : State := { s with now := s.now + 1 }

/-- RST (R163): one atomic step, no event, no RESULT for an abandoned command, NOW unaffected. The unspecified
elements take free values (log 7). What stands outside the EPE (memory, queues, histories) stays. -/
def hardReset (s : State) : State :=
  { s with
    session := .off
    busy := false
    overrun := false
    selfTest := SelfTest.cleared
    result := 0
    fbBase := 0
    fbLen := 0
    busyTimeout := s.par.busyTimeoutReset
    lastTemp := 0
    stageMs := 0
    stRaw := 0
    pc := .idle
    cur := (Config.freeContext s.draws).cur
    upd := (Config.freeContext s.draws).upd
    lineBuf := (Config.freeContext s.draws).lineBuf
    rowBuf := (Config.freeContext s.draws).rowBuf
    rx := (Config.freeContext s.draws).rx
    tDelay0 := (Config.freeContext s.draws).tDelay0
    nDelay := (Config.freeContext s.draws).nDelay
    lines := Lines.down
    race := []
    draws := s.draws + 1 }

end Sys2Proof.Machine
end

