-- ==== Sys2Proof/Machine/Command.lean ====
section
/-! DEFINITION. How a command's meaning is put together, and the commands that do no panel work: NOP (R91) and the
reserved opcodes (R92). -/

namespace Sys2Proof.Machine

/-- One step of a non-NOP command: while no command runs, the host's CMD write issues it (R87); while it runs, one
ENGINE step of its rule (R88, R14). -/
def command (i : Instr) (engine : State → Result) (s : State) : Result :=
  if s.busy then engine s else .next (accept (encode i) s)

/-- The steps of every command that are not its own: COMPLETE is the completion of R89, and no rule gives the command
any other position (log 12). -/
def commonStep (s : State) : Result :=
  match s.pc with
  | .complete kind check stage line => .next (complete kind check stage line s)
  | _ => .fault .noRule

/-- NOP: no effect (R91). -/
def execNop (_ignored : BitVec 28) (s : State) : Result := .next s

/-- The ENGINE steps of a reserved opcode: ILLEGAL_COMMAND as the first step after dispatch (R92, R148). -/
def reservedStep (s : State) : Result :=
  match s.pc with
  | .dispatch => .next (complete .illegalCommand 0 0 0 s)
  | _ => commonStep s

/-- RESERVED, OP 0x4..0x7 (R92). -/
def execReserved4to7 (op : BitVec 4) (ignored : BitVec 28) (s : State) : Result :=
  command (.reserved4to7 op ignored) reservedStep s

/-- RESERVED, OP 0x8..0xF (R92). -/
def execReserved8toF (op : BitVec 4) (ignored : BitVec 28) (s : State) : Result :=
  command (.reserved8toF op ignored) reservedStep s

end Sys2Proof.Machine
end

