-- ==== Sys2Proof/Machine/Power.lean ====
section
/-! DEFINITION. The Power Sequencer (43_power_sequencer.md): the step lists, their interpreter, POWER_UP, POWER_DOWN. -/

namespace Sys2Proof.Machine

/-- A sequencer step (R117). -/
inductive SeqStep where
  | line (name : LineName) (level : Bool)
  | wait (n : Word)
  | regw (idx val : Byte)
  | check (c : Check)
  deriving DecidableEq, Repr

/-- The events a sequencer step emits (R117). -/
def SeqStep.acts (p : Params) : SeqStep → List Act
  | .line name level => [.setLine name level]
  | .wait n => [.delay n]
  | .regw idx val => regWrite p idx val
  | .check c => regRead p (checkIndex p c)

/-- PU_LIST (R120). -/
def puList (p : Params) : List SeqStep :=
  [ .line .ioEnable true, .line .enable true, .wait p.tPwrOn, .line .border true, .line .reset true,
    .wait p.tRstAssert, .line .reset false, .wait p.tRstRelease, .check .driverId, .check .breakage,
    .regw p.idxOsc p.valOscOn, .regw p.idxCp p.valCpOn, .wait p.tCpSettle, .check .dcLevel ]

/-- PD_LIST (R121). -/
def pdList (p : Params) : List SeqStep :=
  [ .regw p.idxOsc p.valOscOff, .regw p.idxCp p.valCpOff, .line .discharge true, .wait p.tDischarge,
    .line .discharge false, .line .border false, .line .reset false, .line .enable false, .line .ioEnable false ]

/-- CHECK(c) after its read exchange (R119): the record, and on a failed check SESSION, ST_VALID and the fault. That all
these assignments are one ENGINE step, with the report of R142 the next, is the model's choice (log 29): the HOST sees no
STATUS between them. -/
def evalCheck (c : Check) (next : Pc) (s : State) : State :=
  let pass := checkPasses c s.rx
  let seen := { s with selfTest := s.selfTest.evaluate c pass, stRaw := rawWith s.stRaw c s.rx }
  if pass then seen.goto next
  else faultSession .selftestFailure (checkCode c) 0 0 { seen with selfTest := { seen.selfTest with valid := true } }

/-- What ends a sequencer step after its last event: a WAIT holds (R64), a CHECK is evaluated (R119). -/
def endStep (st : SeqStep) (next : Pc) (s : State) : State :=
  match st with
  | .line _ _ => s.goto next
  | .regw _ _ => s.goto next
  | .wait _ => if held s then s else s.goto next
  | .check c => evalCheck c next s

/-- One ENGINE step at step i (counted from 1), event ev of a step list; after the list, `done`. -/
def runList (l : List SeqStep) (at_ : Nat → Nat → Pc) (done : State → State) (i ev : Nat) (s : State) : State :=
  match l[i - 1]? with
  | some st => runFrame (st.acts s.par) ev (at_ i) (endStep st (at_ (i + 1) 0)) s
  | none => done s

/-- SESSION <- PoweringUp, the record cleared, and step 1 of PU_LIST next (R122). -/
def startPowerUp (s : State) : State := { clearRecord s with session := .poweringUp, pc := .pu 1 0 }

/-- SESSION <- PoweringDown, and step 1 of PD_LIST next (R123, R125). -/
def startPowerDown (s : State) : State := { s with session := .poweringDown, pc := .pd 1 0 }

/-- The end of PU_LIST: SESSION <- Ready; ST_VALID <- 1; complete(OK) next (R122). -/
def endPowerUp (s : State) : State :=
  { s with session := .ready, selfTest := { s.selfTest with valid := true }, pc := .complete .ok 0 0 0 }

/-- The end of PD_LIST: SESSION <- Off and the record cleared (R123, R125). -/
def endPowerDown (next : Pc) (s : State) : State := { clearRecord s with session := .off, pc := next }

/-- POWER_UP at DISPATCH (R122): Off powers up, Faulted powers down first (R123), every other session is not the one
POWER_UP expects and gives NOT_READY (R124, log 11). -/
def dispatchPowerUp (s : State) : State :=
  match s.session with
  | .off => startPowerUp s
  | .faulted => startPowerDown s
  | .ready => complete .notReady 0 0 0 s
  | .poweringUp => complete .notReady 0 0 0 s
  | .poweringDown => complete .notReady 0 0 0 s

/-- The ENGINE steps of POWER_UP (R122, R123). -/
def powerUpStep (s : State) : Result :=
  match s.pc with
  | .dispatch => .next (dispatchPowerUp s)
  | .pd i ev => .next (runList (pdList s.par) .pd (endPowerDown .puStart) i ev s)
  | .puStart => .next (startPowerUp s)
  | .pu i ev => .next (runList (puList s.par) .pu endPowerUp i ev s)
  | _ => commonStep s

/-- POWER_UP (R122). -/
def execPowerUp (ignored : BitVec 28) (s : State) : Result :=
  command (.powerUp ignored) powerUpStep s

/-- POWER_DOWN at DISPATCH (R125): NOT_READY in session Off, else the power-down list. -/
def dispatchPowerDown (s : State) : State :=
  if s.session = .off then complete .notReady 0 0 0 s else startPowerDown s

/-- The ENGINE steps of POWER_DOWN (R125). -/
def powerDownStep (s : State) : Result :=
  match s.pc with
  | .dispatch => .next (dispatchPowerDown s)
  | .pd i ev => .next (runList (pdList s.par) .pd (endPowerDown (.complete .ok 0 0 0)) i ev s)
  | _ => commonStep s

/-- POWER_DOWN (R125). -/
def execPowerDown (ignored : BitVec 28) (s : State) : Result :=
  command (.powerDown ignored) powerDownStep s

end Sys2Proof.Machine
end

