-- ==== Sys2Proof/Machine/Encoder.lean ====
section
/-! DEFINITION. The Pixel Line Encoder (41_line_encoder.md), and the inverse mapping of R109. -/

namespace Sys2Proof.Machine

/-- The colour of a pixel (R95). -/
inductive Color where
  | black
  | white
  deriving DecidableEq, Repr

/-- The two image maps (R98). -/
inductive ImageMap where
  | norm
  | inv
  deriving DecidableEq, Repr

/-- Where a stage's pixels come from (R97). -/
inductive PixelSource where
  | uniform (code : BitVec 2)
  | image (m : ImageMap)
  deriving DecidableEq, Repr

/-- pixel(S, c) (R94): the bit 7 − (c mod 8) of source byte c div 8. -/
def pixel (src : Vector Byte 33) (c : Nat) : Bool :=
  (src[c / 8]?.getD 0).getLsbD (7 - c % 8)

/-- color(p) (R95). -/
def colorOf (p : Params) (bit : Bool) : Color :=
  if bit = p.pixelOneIsBlack then .black else .white

/-- The image maps send a colour to a drive code (R98). -/
def ImageMap.code (p : Params) : ImageMap → Color → BitVec 2
  | .norm, .black => p.driveBlack
  | .norm, .white => p.driveWhite
  | .inv, .black => p.driveNoChange
  | .inv, .white => p.driveBlack

/-- The pixel source of a stage kind (R97). -/
def pixelSource (p : Params) : StageKind → PixelSource
  | .comp => .uniform p.driveBlack
  | .white => .uniform p.driveWhite
  | .inverse => .image .inv
  | .normal => .image .norm

/-- Whether a stage kind reads the frame buffer (R59, R97). -/
def isImageStage : StageKind → Bool
  | .comp => false
  | .white => false
  | .inverse => true
  | .normal => true

/-- code(c) (R99). -/
def codeAt (p : Params) (ps : PixelSource) (src : Vector Byte 33) (c : Nat) : BitVec 2 :=
  match ps with
  | .uniform u => u
  | .image m => m.code p (colorOf p (pixel src c))

/-- E_b (R101): the even columns of source byte b, code(8b) in bits [7:6]. -/
def evenByte (p : Params) (ps : PixelSource) (src : Vector Byte 33) (b : Nat) : Byte :=
  codeAt p ps src (8 * b) ++ codeAt p ps src (8 * b + 2)
    ++ codeAt p ps src (8 * b + 4) ++ codeAt p ps src (8 * b + 6)

/-- O_b (R102): the odd columns of source byte b, code(8b + 7) in bits [7:6]. -/
def oddByte (p : Params) (ps : PixelSource) (src : Vector Byte 33) (b : Nat) : Byte :=
  codeAt p ps src (8 * b + 7) ++ codeAt p ps src (8 * b + 5)
    ++ codeAt p ps src (8 * b + 3) ++ codeAt p ps src (8 * b + 1)

/-- Sc_j of row r (R103). -/
def scanByte (p : Params) (r : BitVec 8) (j : Nat) : Byte :=
  if j = r.toNat / 4 then p.scanPattern[r.toNat % 4]'(Nat.mod_lt _ (by decide)) else 0

/-- The 44 scan bytes of row r (R103). -/
def scanBytes (p : Params) (r : BitVec 8) : List Byte := (List.range 44).map (scanByte p r)

/-- E_32, E_31, …, E_0 (R104). -/
def evenBytes (p : Params) (ps : PixelSource) (src : Vector Byte 33) : List Byte :=
  (List.range 33).map (fun j => evenByte p ps src (32 - j))

/-- O_0, O_1, …, O_32 (R104). -/
def oddBytes (p : Params) (ps : PixelSource) (src : Vector Byte 33) : List Byte :=
  (List.range 33).map (oddByte p ps src)

/-- The parts of a line in the order of LINE_LAYOUT (R104). -/
def lineList (p : Params) (r : BitVec 8) (ps : PixelSource) (src : Vector Byte 33) : List Byte :=
  match p.lineLayout with
  | .scanDataDummy => scanBytes p r ++ evenBytes p ps src ++ oddBytes p ps src ++ [p.dummyByte]
  | .evenScanOddDummy => evenBytes p ps src ++ scanBytes p r ++ oddBytes p ps src ++ [p.dummyByte]

/-- Every line is 111 bytes long (R104). -/
theorem lineList_length (p : Params) (r : BitVec 8) (ps : PixelSource) (src : Vector Byte 33) :
    (lineList p r ps src).length = 111 := by
  unfold lineList
  cases p.lineLayout <;> simp [scanBytes, evenBytes, oddBytes]

/-- line(r, P, S), the EncodedLine (R104, R84). -/
def encodeLine (p : Params) (r : BitVec 8) (ps : PixelSource) (src : Vector Byte 33) : Vector Byte 111 :=
  ⟨(lineList p r ps src).toArray, lineList_length p r ps src⟩

/-- The dummy line of the settle pass (R108). -/
def dummyLine (p : Params) : List Byte :=
  List.replicate 44 0 ++ List.replicate 66 p.dummyLineFill ++ [p.dummyByte]

/-- The offset of E_b in a line, for each layout (R104, R109). -/
def evenOffset (p : Params) (b : Nat) : Nat :=
  match p.lineLayout with
  | .scanDataDummy => 44 + (32 - b)
  | .evenScanOddDummy => 32 - b

/-- The offset of O_b in a line (R104, R109). -/
def oddOffset (b : Nat) : Nat := 77 + b

/-- The drive code of column c in a line: the bit pair of R100. -/
def lineCode (p : Params) (l : List Byte) (c : Nat) : BitVec 2 :=
  if c % 2 = 0 then (l.getD (evenOffset p (c / 8)) 0).extractLsb' (6 - (c % 8 / 2) * 2) 2
  else (l.getD (oddOffset (c / 8)) 0).extractLsb' ((c % 8 / 2) * 2) 2

/-- The pixel bit that a drive code of an image line stands for (R109): the bit whose colour the map sends to it. -/
def pixelOfCode (p : Params) (m : ImageMap) (code : BitVec 2) : Bool :=
  if code = m.code p .black then p.pixelOneIsBlack else !p.pixelOneIsBlack

end Sys2Proof.Machine
end

