-- ==== Sys2Proof/Machine/Update.lean ====
section
/-! DEFINITION. The Frame Update Controller (44_frame_update.md): validation, latch, the stage loop, the busy wait, the
handshake and the settle pass. -/

namespace Sys2Proof.Machine

/-- UPDATE validation, one ENGINE step at DISPATCH (R129): the session first, then the declared length (R150). -/
def validateUpdate (s : State) : State :=
  if s.session ≠ .ready then complete .notReady 0 0 0 s
  else if s.cur.fbl ≠ imageBytes then complete .invalidInput 0 0 0 s
  else s.goto .latch

/-- The update context the latch writes, K = 1 for the first stage (R130, R131). -/
def latchedCtx (s : State) : UpdateCtx :=
  let m := modeOfBit s.cur.mode
  let b := bucket (degrees s.cur.temp)
  { s.upd with
    modeL := m
    tempL := s.cur.temp
    bucketL := b
    stageMsL := stageDuration s.par m b
    fbBaseL := s.cur.fbb
    timeoutL := s.cur.tmo
    k := 1 }

/-- UPDATE latch, one ENGINE step (R130). -/
def latchUpdate (s : State) : State :=
  let u := latchedCtx s
  { s with
    upd := u
    lastTemp := lastTempWord u.bucketL u.tempL
    stageMs := u.stageMsL
    pc := .stageStart }

/-- STAGES(MODE_L)[K], counted from 1 (R127). -/
def currentStage (s : State) : Option StageKind := (stagesOf s.par s.upd.modeL)[s.upd.k.toNat - 1]?

/-- A stage begins: T_STAGE0 <- NOW and row 0 (R131). -/
def startStage (s : State) : State :=
  { s with upd := { s.upd with tStage0 := s.now, r := 0 }, pc := .row }

/-- ENCODE_LINE's first step (R106): an image stage reads its row, a uniform one does not (R59). -/
def startRow (k : StageKind) (s : State) : State :=
  s.goto (if isImageStage k then .fetch 0 else .encode)

/-- S[b] <- MemRead((FB_BASE_L + 33 R + b) mod 2^32, 1) (R106, R57), one ENGINE step each (R131); after byte 32 the line
is built. -/
def fetchByte (b : Nat) (s : State) : State :=
  let a := fbAddr s.upd.fbBaseL s.upd.r b
  { noteRead a s with
    rowBuf := s.rowBuf.setIfInBounds b (memByte s a)
    pc := if b < 32 then .fetch (b + 1) else .encode }

/-- LINE_BUF <- line(R, P, S) (R106). -/
def buildLine (k : StageKind) (s : State) : State :=
  { s with lineBuf := encodeLine s.par s.upd.r (pixelSource s.par k) s.rowBuf, pc := .line 0 }

/-- BUSY_WAIT(stage, line) (R133): one ENGINE step. `at_` names the wait's positions and `ret` is its return. A sample
of 0 returns at once; a sample of 1 times out when it is taken more than TIMEOUT_L ms after T_WAIT0 (R133, R145): the
bound is tested, strictly, on NOW at the sample (log 2). -/
def busyWait (stage : BitVec 4) (line : BitVec 8) (at_ : WaitPhase → Pc) (ret : State → State) (w : WaitPhase)
    (s : State) : State :=
  match w with
  | .start => { s with upd := { s.upd with tWait0 := s.now }, pc := at_ .sample }
  | .sample =>
    if busyLevel s then
      if s.upd.timeoutL.toNat < (elapsed s.now s.upd.tWait0).toNat then
        faultSession .commTimeout 0 stage line (emitReadBusy s)
      else (emitReadBusy s).goto (at_ .delay)
    else ret (emitReadBusy s)
  | .delay => (emit (.delay s.par.busyPoll) s).goto (at_ .hold)
  | .hold => if held s then s else s.goto (at_ .sample)

/-- After the busy wait of row R: the next row, or the end of the pass (R131). -/
def nextRow (s : State) : State :=
  if s.upd.r.toNat < lastRow.toNat then { s with upd := { s.upd with r := s.upd.r + 1 }, pc := .row }
  else s.goto .passEnd

/-- The NOW read after row 175 (R131): another pass of the stage, the next stage, or the handshake. -/
def endPass (s : State) : State :=
  if (elapsed s.now s.upd.tStage0).toNat < s.upd.stageMsL.toNat then
    { s with upd := { s.upd with r := 0 }, pc := .row }
  else if s.upd.k.toNat < (stagesOf s.par s.upd.modeL).length then
    { s with upd := { s.upd with k := s.upd.k + 1 }, pc := .stageStart }
  else s.goto (.handshake 0)

/-- After the handshake (R128): the settle pass of a Full update (R136), or the completion. -/
def endHandshake (s : State) : State :=
  match s.upd.modeL with
  | .full => s.goto (.settle 0)
  | .partialUpd => s.goto (.complete .ok 0 0 0)

/-- The ENGINE steps of UPDATE (R128). -/
def updateStep (s : State) : Result :=
  match s.pc with
  | .dispatch => .next (validateUpdate s)
  | .latch => .next (latchUpdate s)
  | .stageStart => .next (startStage s)
  | .row =>
    match currentStage s with
    | some k => .next (startRow k s)
    | none => .fault .noRule
  | .fetch b => .next (fetchByte b s)
  | .encode =>
    match currentStage s with
    | some k => .next (buildLine k s)
    | none => .fault .noRule
  | .line ev => .next (runFrame (lineTx s.par s.lineBuf.toList) ev .line (fun t => t.goto (.wait .start)) s)
  | .wait w => .next (busyWait s.upd.k s.upd.r .wait nextRow w s)
  | .passEnd => .next (endPass s)
  | .handshake ev => .next (runFrame (regWrite s.par s.par.idxTxDone s.par.valTxDone) ev .handshake endHandshake s)
  | .settle ev =>
    .next (runFrame (lineTx s.par (dummyLine s.par)) ev .settle (fun t => t.goto (.settleWait .start)) s)
  | .settleWait w => .next (busyWait 0 0 .settleWait (fun t => t.goto (.complete .ok 0 0 0)) w s)
  | _ => commonStep s

/-- UPDATE_FULL (R128): the mode and temperature are read from CUR, where acceptance put them. -/
def execUpdateFull (temp : BitVec 16) (reserved : BitVec 11) (s : State) : Result :=
  command (.updateFull temp reserved) updateStep s

/-- UPDATE_PARTIAL (R128): the mode and temperature are read from CUR, where acceptance put them. -/
def execUpdatePartial (temp : BitVec 16) (reserved : BitVec 11) (s : State) : Result :=
  command (.updatePartial temp reserved) updateStep s

end Sys2Proof.Machine
end

