-- ==== Sys2Proof/Machine/Dispatch.lean ====
section
/-! DEFINITION. The meaning of each command word, one arm per row of the opcode table (R81, R88). -/

namespace Sys2Proof.Machine

/-- One step of command i: its issue while the engine is idle (R87), one ENGINE step of it while it runs (R88). -/
def exec (i : Instr) (s : State) : Host.Outcome State Fault Refusal :=
  match i with
  | .nop ignored => Sys2Proof.Machine.execNop ignored s
  | .powerUp ignored => Sys2Proof.Machine.execPowerUp ignored s
  | .powerDown ignored => Sys2Proof.Machine.execPowerDown ignored s
  | .updateFull temp reserved => Sys2Proof.Machine.execUpdateFull temp reserved s
  | .updatePartial temp reserved => Sys2Proof.Machine.execUpdatePartial temp reserved s
  | .reserved4to7 op ignored => Sys2Proof.Machine.execReserved4to7 op ignored s
  | .reserved8toF op ignored => Sys2Proof.Machine.execReserved8toF op ignored s

end Sys2Proof.Machine
end

