-- ==== Sys2Proof/Machine/HostPort.lean ====
section
/-! DEFINITION. The host register window (R21, R22, R48, R52 to R55): reads, writes and the CMD write. -/

namespace Sys2Proof.Machine

/-- The registers of the window (R21). -/
inductive Reg where
  | cmd
  | status
  | result
  | fbBase
  | fbLen
  | busyTimeout
  | lastTemp
  | stageMs
  | stRaw
  deriving DecidableEq, Repr

/-- A register's offset (R21). -/
def Reg.offset : Reg → Nat
  | .cmd => 0x00
  | .status => 0x04
  | .result => 0x08
  | .fbBase => 0x0C
  | .fbLen => 0x10
  | .busyTimeout => 0x14
  | .lastTemp => 0x18
  | .stageMs => 0x1C
  | .stRaw => 0x20

/-- The register at an offset; `none` at the reserved offsets 0x24..0x3C (R21). -/
def regAt (off : Nat) : Option Reg :=
  if off = 0x00 then some .cmd
  else if off = 0x04 then some .status
  else if off = 0x08 then some .result
  else if off = 0x0C then some .fbBase
  else if off = 0x10 then some .fbLen
  else if off = 0x14 then some .busyTimeout
  else if off = 0x18 then some .lastTemp
  else if off = 0x1C then some .stageMs
  else if off = 0x20 then some .stRaw
  else none

/-- Whether an access is one aligned 32-bit word of the 64-byte window (R48, R52). -/
def accessOk (off bytes : Nat) : Bool := decide (bytes = 4) && decide (off % 4 = 0) && decide (off < 64)

/-- What a register reads as (R21, R22, R23). -/
def readReg (r : Reg) (s : State) : Word :=
  match r with
  | .cmd => 0
  | .status => statusWord s
  | .result => s.result
  | .fbBase => s.fbBase
  | .fbLen => s.fbLen
  | .busyTimeout => s.busyTimeout
  | .lastTemp => s.lastTemp
  | .stageMs => s.stageMs
  | .stRaw => s.stRaw

/-- What an offset reads as: a reserved offset reads 0 (R22). -/
def hostRead (off : Nat) (s : State) : Word :=
  match regAt off with
  | some r => readReg r s
  | none => 0

/-- A CMD write (R87): BUSY is tested first, and a word written while it is 1 is dropped and flagged (R93); else the
word's command is issued. -/
def cmdWrite (w : Word) (s : State) : Result :=
  if s.busy then .next { s with overrun := true } else exec (decodeWord w) s

/-- A write to a register (R22, R24): write-1-to-clear for OVERRUN, every bit of the read-write registers, nothing for
the read-only ones. -/
def writeReg (r : Reg) (v : Word) (s : State) : Result :=
  match r with
  | .cmd => cmdWrite v s
  | .status => .next { s with overrun := s.overrun && !v.getLsbD 4 }
  | .fbBase => .next { s with fbBase := v }
  | .fbLen => .next { s with fbLen := v }
  | .busyTimeout => .next { s with busyTimeout := v }
  | .result => .next s
  | .lastTemp => .next s
  | .stageMs => .next s
  | .stRaw => .next s

/-- A write at an offset: a reserved offset ignores it (R22). -/
def hostWrite (off : Nat) (v : Word) (s : State) : Result :=
  match regAt off with
  | some r => writeReg r v s
  | none => .next s

/-- The bytes of a register word as a platform bus carries them: at REG_BASE + offset, bit 0 of the register in the
byte at the lowest address (R48, R53). That a host physical address has 32 bits, so that a lane's address wraps modulo
2^32, is the model's choice (DESIGN CHOICE, log 17): the spec leaves the map and its width to the platform. -/
def busLanes (off : Nat) (v : Word) : List (Word × Byte) :=
  (List.range 4).map (fun i => (Config.regBase + BitVec.ofNat 32 (off + i), v.extractLsb' (8 * i) 8))

end Sys2Proof.Machine
end

