-- ==== Sys2Proof/WellFormed.lean ====
section
/-! DEFINITION. Which instructions and which parameter sets are well formed (R81, R11). -/

namespace Sys2Proof

/-- An instruction is well formed when its OP operand lies in its row of the opcode map (R81, R82). Every other operand
may take every value of its width. -/
def Instr.wf : Instr → Bool
  | .nop _ => true
  | .powerUp _ => true
  | .powerDown _ => true
  | .updateFull _ _ => true
  | .updatePartial _ _ => true
  | .reserved4to7 op _ => decide (4 ≤ op.toNat) && decide (op.toNat ≤ 7)
  | .reserved8toF op _ => decide (8 ≤ op.toNat)

/-- The drive codes are pairwise distinct (R11). -/
def Params.codesDistinct (p : Params) : Bool :=
  p.driveBlack != p.driveWhite && p.driveBlack != p.driveNoChange && p.driveWhite != p.driveNoChange

/-- The FACTOR10 entries are pairwise distinct (R11). -/
def Params.factorsDistinct (p : Params) : Bool :=
  decide (p.factor10.toList.Nodup)

/-- Each stage list has length 1 to 15 (R11). -/
def Params.stagesBounded (p : Params) : Bool :=
  decide (1 ≤ p.stagesFull.length) && decide (p.stagesFull.length ≤ 15) &&
    (decide (1 ≤ p.stagesPartial.length) && decide (p.stagesPartial.length ≤ 15))

/-- A well-formed parameter set (R11). The ranges R11 asks of bytes, 16-bit entries and 32-bit delays hold by type. -/
def Params.wf (p : Params) : Bool :=
  p.codesDistinct && p.factorsDistinct && p.stagesBounded

end Sys2Proof
end

