-- ==== Sys2Proof/Machine/Agents.lean ====
section
/-! DEFINITION. The turns of the agents (R13, R14): HOST, ENGINE, CLOCK, the reset input and the short transport. -/

namespace Sys2Proof.Machine

/-- A host read with its note in the host's log (R86): `holds` is what the checker asserts about the value. -/
def noteHostRead (off : Nat) (holds : Word → Bool) (s : State) : State :=
  { s with hostLog := ⟨off, hostRead off s, holds (hostRead off s)⟩ :: s.hostLog }

/-- One HOST step: the next host operation (R86). A WAIT_IDLE stays while the STATUS it reads has BUSY = 1. An access
outside the EPE's interface is refused (R52). -/
def hostTurn (s : State) : Result :=
  match s.host with
  | [] => .next s
  | op :: rest =>
    match op with
    | .rd off bytes =>
      if accessOk off bytes then .next (noteHostRead off (fun _ => true) { s with host := rest })
      else .refused .badHostAccess
    | .wr off bytes v =>
      if accessOk off bytes then hostWrite off v { s with host := rest } else .refused .badHostAccess
    | .waitIdle =>
      .next (noteHostRead Reg.status.offset (fun _ => true) (if s.busy then s else { s with host := rest }))
    | .expect off mask v =>
      if accessOk off 4 then .next (noteHostRead off (fun w => w &&& mask == v) { s with host := rest })
      else .refused .badHostAccess
    | .memWr a v => .next (hostMemWrite a v { s with host := rest })

/-- One ENGINE step: a step of the command in CUR; with no command in flight the engine waits (R14, R162). -/
def engineTurn (s : State) : Result := if s.busy then exec s.cur.instr s else .next s

/-- Whether the engine stands before a byte of a writeBuffer: the 111 line bytes of a LINE_TX (R62, R67). -/
def inWriteBuffer (s : State) : Bool :=
  match s.pc with
  | .line ev => decide (6 ≤ ev) && decide (ev < 117)
  | .settle ev => decide (6 ≤ ev) && decide (ev < 117)
  | _ => false

/-- The transport stops taking bytes: inside a writeBuffer the model has no move (R62, 93 U8, log 13). -/
def shortTurn (s : State) : Result := if inWriteBuffer s then .fault .shortWrite else .next s

/-- One turn of one agent (R13, R163). -/
def takeTurn (t : Turn) (s : State) : Result :=
  match t with
  | .host => hostTurn s
  | .engine => engineTurn s
  | .clock => .next (clockTick s)
  | .rst => .next (hardReset s)
  | .short => shortTurn s

/-- The turns of a list, one after the other, up to the first stop. -/
def runTurns : List Turn → State → Result
  | [], s => .next s
  | t :: rest, s =>
    match takeTurn t s with
    | .next u => runTurns rest u
    | .fault f => .fault f
    | .refused r => .refused r

/-- Whose turn is next: the schedule says, or any agent where it says nothing (R13, log 3). -/
def currentTurn (s : State) : Turn :=
  match s.turns with
  | t :: _ => t
  | [] => Config.freeTurn s.draws

/-- The state once that turn is taken off the schedule, or drawn. -/
def dropTurn (s : State) : State :=
  match s.turns with
  | _ :: rest => { s with turns := rest }
  | [] => { s with draws := s.draws + 1 }

/-- The next turn (R13). A parameter set that is not well formed is refused (R11). -/
def nextTurn (s : State) : Result :=
  if s.par.wf then takeTurn (currentTurn s) (dropTurn s) else .refused .badParameters

/-- The state whose next turn is the HOST's CMD write of w to an idle engine (log 16). -/
def placeCommand (w : Word) (s : State) : State :=
  { s with
    busy := false
    pc := .idle
    turns := .host :: s.turns
    host := .wr Reg.cmd.offset 4 w :: s.host }

end Sys2Proof.Machine
end

