-- ==== Sys2Proof/Machine/Step.lean ====
section
/-! DEFINITION. One step of the machine, and the placement of a command word where the next step takes it. -/

namespace Sys2Proof.Machine

/-- One step: the next agent's turn (R13, R14). -/
def step (s : State) : Host.Outcome State Fault Refusal := nextTurn s

/-- s with the command word of `nbits` bits w written next to CMD by the HOST, the engine idle: commands are not
fetched, they arrive by the CMD write (R51, R87, log 16). -/
def State.withFetchWord (s : State) (nbits w : Nat) : State :=
  placeCommand (BitVec.ofNat 32 (w % 2 ^ nbits)) s

end Sys2Proof.Machine
end

