-- ==== Sys2Proof/Machine/Assembler.lean ====
section
/-! DEFINITION. The host assembly of R85 and R86: statements, and the host operations they stand for. -/

namespace Sys2Proof.Machine

/-- How a statement names a register: a name or an offset of R21 (R86). -/
inductive RegRef where
  | name (r : Reg)
  | offset (off : Nat)
  deriving DecidableEq, Repr

/-- The offset a statement's register stands for; an offset that is no aligned word of the window is none of R21's, and
an assembler refuses it (R52, log 14). -/
def RegRef.resolve : RegRef → Option Nat
  | .name r => some r.offset
  | .offset off => if accessOk off 4 then some off else none

/-- A statement of a host program (R85, R86). -/
inductive Stmt where
  | nop
  | powerUp
  | powerDown
  | updateFull (t : Int)
  | updatePartial (t : Int)
  /-- `.word w`: w as a command, any OP -/
  | word (w : Word)
  | wr (r : RegRef) (v : Word)
  | rd (r : RegRef)
  | waitIdle
  | setFb (base : Word)
  | clrOverrun
  | expect (r : RegRef) (mask v : Word)
  deriving DecidableEq, Repr

/-- The operand of UPDATE_FULL and UPDATE_PARTIAL; an assembler refuses a value outside −32768..32767 (R85). -/
def tempOperand (t : Int) : Option (BitVec 16) :=
  if -32768 ≤ t ∧ t ≤ 32767 then some (BitVec.ofInt 16 t) else none

/-- `WR CMD, w`: what each command statement stands for (R85). -/
def issue (w : Word) : List HostOp := [.wr Reg.cmd.offset 4 w]

/-- The host operations of one statement (R85, R86); `none` where an assembler refuses it. -/
def assemble : Stmt → Option (List HostOp)
  | .nop => some (issue (encode (.nop 0)))
  | .powerUp => some (issue (encode (.powerUp 0)))
  | .powerDown => some (issue (encode (.powerDown 0)))
  | .updateFull t => (tempOperand t).map (fun f => issue (encode (.updateFull f 0)))
  | .updatePartial t => (tempOperand t).map (fun f => issue (encode (.updatePartial f 0)))
  | .word w => some (issue w)
  | .wr r v => r.resolve.map (fun off => [.wr off 4 v])
  | .rd r => r.resolve.map (fun off => [.rd off 4])
  | .waitIdle => some [.waitIdle]
  | .setFb base => some [.wr Reg.fbBase.offset 4 base, .wr Reg.fbLen.offset 4 imageBytes]
  | .clrOverrun => some [.wr Reg.status.offset 4 0x00000010]
  | .expect r mask v => r.resolve.map (fun off => [.expect off mask v])

/-- The host operations of a program, in order; `none` where a statement is refused. -/
def assembleAll : List Stmt → Option (List HostOp)
  | [] => some []
  | st :: rest =>
    match assemble st, assembleAll rest with
    | some ops, some more => some (ops ++ more)
    | _, _ => none

end Sys2Proof.Machine
end

