-- ==== Sys2Proof/Safety.lean ====
section
/-! DEFINITION. What a state that a run can reach looks like (`Inv` and its parts), and which turns keep the host's and
the platform's duties (R166 to R168). -/

namespace Sys2Proof.Machine

/-! ### The parts of the invariant -/

/-- BUSY is 1 exactly while a command is in flight (R26, R87, R89). -/
def BusyInv (s : State) : Prop := s.busy = false ↔ s.pc = .idle

/-- Which session an outcome leaves (R149): the session at COMPLETE, for the outcomes that are reported from there. -/
def outcomeFits (op : BitVec 4) (kind : Kind) (session : Session) : Bool :=
  (op == 1 && kind == .ok && session == .ready) ||
  (op == 2 && kind == .ok && session == .off) ||
  (op == 3 && kind == .ok && session == .ready) ||
  (op == 1 && kind == .selftestFailure && session == .faulted) ||
  (op == 3 && kind == .commTimeout && session == .faulted)

/-- Whether the position is one of the frame update's (R128). -/
def isUpdatePc : Pc → Bool
  | .latch => true
  | .stageStart => true
  | .row => true
  | .fetch _ => true
  | .encode => true
  | .line _ => true
  | .wait _ => true
  | .passEnd => true
  | .handshake _ => true
  | .settle _ => true
  | .settleWait _ => true
  | .idle => false
  | .dispatch => false
  | .pd _ _ => false
  | .pu _ _ => false
  | .puStart => false
  | .complete _ _ _ _ => false

/-- A session an idle engine shows (R25). -/
def Session.settled : Session → Bool
  | .off => true
  | .ready => true
  | .faulted => true
  | .poweringUp => false
  | .poweringDown => false

/-- The command, the position and the session belong together (R36, R88, R122, R125, R128). -/
def positionFits (op : BitVec 4) (session : Session) : Pc → Bool
  | .idle => session.settled
  | .dispatch => op != 0 && session.settled
  | .pd i _ => (op == 1 || op == 2) && session == .poweringDown && decide (1 ≤ i)
  | .pu i _ => op == 1 && session == .poweringUp && decide (1 ≤ i)
  | .puStart => op == 1 && session == .off
  | .complete kind _ _ _ => outcomeFits op kind session
  | p => isUpdatePc p && op == 3 && session == .ready

/-- `positionFits` of a state. -/
def PositionInv (s : State) : Prop := positionFits s.cur.op s.session s.pc = true

/-- K numbers a stage of the list (R127, R131). -/
def stageOk (s : State) : Bool :=
  decide (1 ≤ s.upd.k.toNat) && decide (s.upd.k.toNat ≤ (stagesOf s.par s.upd.modeL).length)

/-- R is a row of the panel (R39, R131). -/
def rowOk (s : State) : Bool := decide (s.upd.r.toNat ≤ lastRow.toNat)

/-- Inside the stage loop K and R are a stage and a row; what COMPLETE is about to report lies in its field's range
(R28, R131, R145). -/
def loopFits (s : State) : Bool :=
  match s.pc with
  | .stageStart => stageOk s
  | .row => stageOk s && rowOk s
  | .fetch _ => stageOk s && rowOk s
  | .encode => stageOk s && rowOk s
  | .line _ => stageOk s && rowOk s
  | .wait _ => stageOk s && rowOk s
  | .passEnd => stageOk s && rowOk s
  | .complete _ check _ line => decide (check.toNat ≤ 2) && decide (line.toNat ≤ lastRow.toNat)
  | .idle => true
  | .dispatch => true
  | .pd _ _ => true
  | .pu _ _ => true
  | .puStart => true
  | .latch => true
  | .handshake _ => true
  | .settle _ => true
  | .settleWait _ => true

/-- `loopFits` of a state. -/
def LoopInv (s : State) : Prop := loopFits s = true

/-- A RESULT word the EPE can produce: KIND 0 to 5, CHECK 0 to 2, LINE 0 to 175, reserved bits 0 (R28, R29). -/
def resultLegal (w : Word) : Bool :=
  decide ((resultKind w).toNat ≤ 5) && decide ((resultCheck w).toNat ≤ 2) &&
    decide ((resultLine w).toNat ≤ lastRow.toNat) &&
    (w.extractLsb' 3 1 == 0 && w.extractLsb' 6 2 == 0 && w.extractLsb' 12 4 == 0 && w.extractLsb' 28 3 == 0)

/-- `resultLegal` of a state. -/
def ResultInv (s : State) : Prop := resultLegal s.result = true

/-- The CS level after a list of transport actions, from level c. -/
def csAfter : List Act → Bool → Bool
  | [], c => c
  | .setLine name level :: rest, c => csAfter rest (if name = .cs then level else c)
  | .write _ :: rest, c => csAfter rest c
  | .read _ :: rest, c => csAfter rest c
  | .delay _ :: rest, c => csAfter rest c

/-- The actions of the current frame that are done (R37). -/
def doneActs (s : State) : List Act :=
  match s.pc with
  | .pd i ev => (((pdList s.par)[i - 1]?.map (SeqStep.acts s.par)).getD []).take ev
  | .pu i ev => (((puList s.par)[i - 1]?.map (SeqStep.acts s.par)).getD []).take ev
  | .line ev => (lineTx s.par s.lineBuf.toList).take ev
  | .handshake ev => (regWrite s.par s.par.idxTxDone s.par.valTxDone).take ev
  | .settle ev => (lineTx s.par (dummyLine s.par)).take ev
  | _ => []

/-- Whether step j of a list has driven its line when the sequencer stands at step i, event ev. -/
def performed (i ev j : Nat) : Bool := decide (j < i) || (decide (j = i) && decide (1 ≤ ev))

/-- The lines of a powered panel between frames (R120): what POWER_UP leaves, and an update keeps. -/
def Lines.powered : Lines := ⟨false, false, false, true, true, true⟩

/-- The levels of the five lines other than CS as the step lists drive them (R120, R121). -/
def sequencedLines (s : State) : Lines :=
  match s.pc with
  | .pu i ev =>
    { cs := false
      reset := performed i ev 5 && !performed i ev 7
      discharge := false
      enable := performed i ev 2
      border := performed i ev 4
      ioEnable := performed i ev 1 }
  | .pd i ev =>
    { cs := false
      reset := false
      discharge := performed i ev 3 && !performed i ev 5
      enable := !performed i ev 8
      border := !performed i ev 6
      ioEnable := !performed i ev 9 }
  | _ =>
    match s.session with
    | .ready => Lines.powered
    | .faulted => Lines.powered
    | .off => Lines.down
    | .poweringUp => Lines.down
    | .poweringDown => Lines.down

/-- The output lines are those the step lists and the frame in progress give (R42, R65 to R68, R120, R121, R162). -/
def LinesInv (s : State) : Prop :=
  s.lines = { sequencedLines s with cs := csAfter (doneActs s) false }

/-- A byte lane of ST_RAW (R35). -/
def rawLane (raw : Word) : Check → Byte
  | .driverId => raw.extractLsb' 0 8
  | .breakage => raw.extractLsb' 8 8
  | .dcLevel => raw.extractLsb' 16 8

/-- One check's bits agree with its raw byte: an evaluated check has the outcome of its byte, and a check not evaluated
has result bit 0 and byte 0 (R27, R35). -/
def recordAgrees (eval result : Bool) (bad : Bool) (c : Check) (raw : Word) : Bool :=
  if eval then result == (checkPasses c (rawLane raw c) != bad) else !result && rawLane raw c == 0

/-- The self-test record and ST_RAW agree (R27, R35). -/
def RecordInv (s : State) : Prop :=
  recordAgrees s.selfTest.evalDriverId s.selfTest.driverIdValid false .driverId s.stRaw = true ∧
  recordAgrees s.selfTest.evalBreakage s.selfTest.breakageDetected true .breakage s.stRaw = true ∧
  recordAgrees s.selfTest.evalDc s.selfTest.dcLevelOk false .dcLevel s.stRaw = true ∧
  s.stRaw.extractLsb' 24 8 = 0

/-- The record of a power-up that has passed the checks before step i (R27, R120). -/
def recordBefore (i : Nat) : SelfTest where
  valid := false
  driverIdValid := decide (9 < i)
  breakageDetected := false
  dcLevelOk := decide (14 < i)
  evalDriverId := decide (9 < i)
  evalBreakage := decide (10 < i)
  evalDc := decide (14 < i)

/-- The record of a completed power-up with every check passed (R27). -/
def SelfTest.good : SelfTest := ⟨true, true, false, true, true, true, true⟩

/-- What the record holds in each session (R27, R119, R122, R125). -/
def recordFits (s : State) : Bool :=
  match s.pc with
  | .pu i _ => s.selfTest == recordBefore i
  | _ =>
    match s.session with
    | .off => s.selfTest == SelfTest.cleared
    | .ready => s.selfTest == SelfTest.good
    | .faulted => s.selfTest.valid
    | .poweringDown => s.selfTest.valid
    | .poweringUp => true

/-- `recordFits` of a state. -/
def SessionRecordInv (s : State) : Prop := recordFits s = true

/-- The invariant of the machine: what every state of a run from reset satisfies, whatever the host, the panel, the
clock and the schedule do. -/
structure Inv (s : State) : Prop where
  parameters : s.par.wf = true
  memory : s.mem.wf = true
  busyIff : BusyInv s
  position : PositionInv s
  loop : LoopInv s
  resultOk : ResultInv s
  lines : LinesInv s
  record : RecordInv s
  sessionRecord : SessionRecordInv s

/-! ### Histories -/

/-- An event without the byte the environment bound: what the EPE itself decides about it (R60). -/
def Event.unbound : Event → Event
  | .spiByte tx _ => .spiByte tx 0
  | .setLine name level => .setLine name level
  | .readBusy level => .readBusy level
  | .delay n => .delay n

/-- The event of an action, in the form of `Event.unbound`. -/
def Act.event : Act → Event
  | .setLine name level => .setLine name level
  | .write tx => .spiByte tx 0
  | .read tx => .spiByte tx 0
  | .delay n => .delay n

/-- The event history, newest first, in the form of `Event.unbound`. -/
def trace (s : State) : List Event := s.events.map Event.unbound

/-- The events of a step list, in order (R117). -/
def listEvents (p : Params) (l : List SeqStep) : List Event := l.flatMap (fun st => (st.acts p).map Act.event)

/-- How a power-up from session Off, given the panel's answers v0, v1, v2 to the three checks, ends: in the outcome of the
first check that fails (R144), or OK (R122); `before` is the trace its events are put on. -/
def powerUpEnds (v0 v1 v2 : Byte) (before : List Event) (t : State) : Prop :=
  if checkPasses .driverId v0 = false then
    t.result = 0x81000001 ∧ t.session = .faulted ∧ t.lines = Lines.powered ∧
      trace t = (listEvents t.par ((puList t.par).take 9)).reverse ++ before
  else if checkPasses .breakage v1 = false then
    t.result = 0x81000011 ∧ t.session = .faulted ∧ t.lines = Lines.powered ∧
      trace t = (listEvents t.par ((puList t.par).take 10)).reverse ++ before
  else if checkPasses .dcLevel v2 = false then
    t.result = 0x81000021 ∧ t.session = .faulted ∧ t.lines = Lines.powered ∧
      trace t = (listEvents t.par (puList t.par)).reverse ++ before
  else
    t.result = 0x81000000 ∧ t.session = .ready ∧ t.lines = Lines.powered ∧ t.selfTest = SelfTest.good ∧
      t.stRaw = (0 : BitVec 8) ++ v2 ++ v1 ++ v0 ∧
      trace t = (listEvents t.par (puList t.par)).reverse ++ before

/-- The positions of the two busy waits: WAIT(K, R) after a stage's line, WAIT(0, 0) of the settle pass (R37). -/
def waitAt (settle : Bool) (w : WaitPhase) : Pc := if settle then .settleWait w else .wait w

/-- A step's answer with its next state changed by f. -/
def mapNext (f : State → State) : Result → Result
  | .next s => .next (f s)
  | .fault r => .fault r
  | .refused r => .refused r

/-! ### The duties of the host and the platform -/

/-- Whether an address lies in the 5808-byte window of the running UPDATE (R167). -/
def inWindow (s : State) (a : Word) : Bool := decide ((a - s.cur.fbb).toNat < imageBytes.toNat)

/-- Whether an UPDATE is in flight: from its CMD write to its completion (R26, R87, R167). -/
def updateInFlight (s : State) : Bool := s.busy && s.cur.op == 3

/-- Whether the HOST's next operation keeps its duties: no CMD write while BUSY is 1 (R166), and no write to the
frame-buffer window from an UPDATE's CMD write to that UPDATE's completion (R167). -/
def hostKeeps (s : State) : Bool :=
  match s.host with
  | .wr off _ _ :: _ => !(s.busy && off == Reg.cmd.offset)
  | .memWr a _ :: _ => !(updateInFlight s && inWindow s a)
  | _ => true

/-- Whether a turn keeps every duty: RST only with SESSION Off (R168), and no short transport (R62). -/
def keepsDuty (t : Turn) (s : State) : Bool :=
  match t with
  | .host => hostKeeps s
  | .rst => s.session == .off
  | .short => false
  | .engine => true
  | .clock => true

end Sys2Proof.Machine
end

