-- ==== Sys2Proof/Certificates/Slice0/Obligations.lean ====
section
/-! DEFINITION. The statements about the EPE, from the numbered rules of spec/. Every statement is for every well-typed
parameter set unless it says otherwise. -/

open Sys2Proof Sys2Proof.Machine

/-! ### Encoding -/

/-- Decoding an encoded well-formed command gives it back, with every operand bit (R76, R80, R81, R83). -/
def Obligations.DecodeOfEncode : Prop :=
  ∀ i : Instr, i.wf = true → decodeWord (encode i) = i

/-- Every word decodes to a well-formed command whose encoding is the word, and exactly one row of the opcode map admits
it, the row of the command it decodes to (R76, R81). That the word comes back bit for bit is the model's choice of log 22:
Instr keeps the bits that R80 ignores and that R83's decode drops. -/
def Obligations.EncodeOfDecode : Prop :=
  ∀ w : Word, (decodeWord w).wf = true ∧ encode (decodeWord w) = w ∧ rowsOf w = [(decodeWord w).mnemonic]

/-- The decoder reads a word from its four little-endian byte lanes and leaves the bytes after it; fewer than four bytes
are rejected by name (R53, R76). -/
def Obligations.BytesDecode : Prop :=
  (∀ (w : Word) (rest : List Byte), decodeBytes (wordBytes w ++ rest) = .ok (decodeWord w, rest)) ∧
    (∀ l : List Byte, l.length < 4 → decodeBytes l = .error .truncated)

/-- Command words of the spec's vectors V-CMD-1 to V-CMD-14, one or more for every row of the opcode table. -/
def Obligations.SampleWords : Prop :=
  decodeWord 0x00000000 = .nop 0 ∧ decodeWord 0xFFFFFFF0 = .nop 0xFFFFFFF ∧ decodeWord 0x00000001 = .powerUp 0 ∧
    decodeWord 0xABCD0011 = .powerUp 0xABCD001 ∧ decodeWord 0x00000002 = .powerDown 0 ∧
    decodeWord 0x00140003 = .updateFull 20 0 ∧ decodeWord 0xFFF60013 = .updatePartial (-10) 0 ∧
    decodeWord 0x80000003 = .updateFull (-32768) 0 ∧ decodeWord 0x7FFF0013 = .updatePartial 32767 0 ∧
    decodeWord 0x0000FFE3 = .updateFull 0 0x7FF ∧ decodeWord 0x0000FFF3 = .updatePartial 0 0x7FF ∧
    decodeWord 0x00000004 = .reserved4to7 4 0 ∧ decodeWord 0x0000000F = .reserved8toF 15 0 ∧
    decodeWord 0x00140008 = .reserved8toF 8 0x0014000

/-- The bits a word ignores change nothing (R80): words that agree on OP, MODE and TEMP are issued alike, and while a
command other than UPDATE runs, MODE and TEMP in CUR have no part in its ENGINE steps. -/
def Obligations.IgnoredBitsChangeNothing : Prop :=
  (∀ (w w' : Word) (s : State), opField w = opField w' → modeField w = modeField w' → tempField w = tempField w' →
      cmdWrite w s = cmdWrite w' s) ∧
    (∀ (s : State) (m : BitVec 1) (t : BitVec 16), s.cur.op ≠ 3 →
      engineTurn { s with cur := { s.cur with mode := m, temp := t } } =
        mapNext (fun u => { u with cur := { u.cur with mode := m, temp := t } }) (engineTurn s))

/-! ### A step runs the decoded command -/

/-- A step under well-formed parameters is the turn the schedule names, the turn taken off it; under a parameter set
that is not well formed every step is refused (R11, R13, R14). Well formed is what R11 says: the three drive codes are
pairwise distinct, so are the entries of FACTOR10, and both stage lists have length 1 to 15 (R11's ranges hold by type).
That the refusal comes at the step is log 15, and that the schedule is part of the state is log 3. -/
def Obligations.StepTakesTurn : Prop :=
  (∀ (s : State) (t : Turn) (rest : List Turn), s.par.wf = true → s.turns = t :: rest →
      step s = takeTurn t { s with turns := rest }) ∧
    (∀ s : State, s.par.wf = false → step s = .refused .badParameters) ∧
    (∀ p : Params, p.wf = true ↔
      (p.driveBlack ≠ p.driveWhite ∧ p.driveBlack ≠ p.driveNoChange ∧ p.driveWhite ≠ p.driveNoChange) ∧
      (∀ i j : Fin 8, i ≠ j → p.factor10[i] ≠ p.factor10[j]) ∧
      (1 ≤ p.stagesFull.length ∧ p.stagesFull.length ≤ 15) ∧
      (1 ≤ p.stagesPartial.length ∧ p.stagesPartial.length ≤ 15))

/-- A step in which the HOST writes word w to CMD of an idle engine is exec of the decoded word (R51, R87). -/
def Obligations.StepRunsIssuedWord : Prop :=
  ∀ (s : State) (w : Word) (rest : List Turn) (ops : List HostOp), s.par.wf = true → s.turns = .host :: rest →
    s.host = .wr 0 4 w :: ops → s.busy = false →
    step s = exec (decodeWord w) { s with turns := rest, host := ops }

/-- A step in which the ENGINE moves while a command is in flight is exec of the command in CUR (R88); and CUR holds,
bits [15:5] aside, the word that was issued, so its command is of that word's row (R38, R87). -/
def Obligations.StepRunsCommandInFlight : Prop :=
  (∀ (s : State) (rest : List Turn), s.par.wf = true → s.turns = .engine :: rest → s.busy = true →
      step s = exec s.cur.instr { s with turns := rest }) ∧
    (∀ w a b c : Word, (curOfWord w a b c).word = w &&& 0xFFFF001F ∧
      (curOfWord w a b c).instr.mnemonic = (decodeWord w).mnemonic)

/-- The step after a command word is placed runs exactly that command, from an idle engine. -/
def Obligations.StepRunsPlacedWord : Prop :=
  ∀ (s : State) (w : Word), s.par.wf = true →
    step (s.withFetchWord 32 w.toNat) = exec (decodeWord w) { s with busy := false, pc := .idle }

/-! ### Reset -/

/-- RST (R163): every register, the session, pc and the lines take their reset values in one step with no event and no
RESULT; NOW, the parameters, memory and the histories stay. What the HOST then reads (R164) is BUSY_TIMEOUT_RESET at
BUSY_TIMEOUT_MS and 0 at every other offset, as it does in the reset state of an instance. -/
def Obligations.ResetTakesEffect : Prop :=
  (∀ s : State, ∃ t, takeTurn .rst s = .next t ∧
    statusWord t = 0 ∧ t.result = 0 ∧ t.fbBase = 0 ∧ t.fbLen = 0 ∧ t.busyTimeout = s.par.busyTimeoutReset ∧
    t.lastTemp = 0 ∧ t.stageMs = 0 ∧ t.stRaw = 0 ∧ t.session = .off ∧ t.busy = false ∧ t.pc = .idle ∧
    t.lines = ⟨false, false, false, false, false, false⟩ ∧
    t.now = s.now ∧ t.events = s.events ∧ t.fbReads = s.fbReads ∧ t.hostLog = s.hostLog ∧ t.host = s.host ∧
    t.par = s.par ∧ t.mem = s.mem ∧
    (∀ off : Nat, hostRead off t = if off = 0x14 then s.par.busyTimeoutReset else 0)) ∧
  (∀ (p : Params) (off : Nat), hostRead off (State.resetWith p) = if off = 0x14 then p.busyTimeoutReset else 0)

/-! ### The host register window -/

/-- A host read puts the register's value in the host's log and changes nothing else (R22, R55). -/
def Obligations.HostReadChangesNothing : Prop :=
  ∀ (s : State) (off : Nat) (ops : List HostOp), off % 4 = 0 → off < 64 → s.host = .rd off 4 :: ops →
    hostTurn s = .next { s with host := ops, hostLog := ⟨off, hostRead off s, true⟩ :: s.hostLog }

/-- Host accesses to the window (R22): the HOST's turn with an aligned write next is `hostWrite` of its offset and value,
the operation taken off, whatever BUSY is; at CMD that is the CMD write (R87). A write-only register and a reserved offset
read 0; a write to a read-only register or a reserved offset has no effect; a write to a read-write register sets every
bit of it. -/
def Obligations.HostAccessRules : Prop :=
  (∀ (s : State) (off : Nat) (v : Word) (ops : List HostOp), off % 4 = 0 → off < 64 → s.host = .wr off 4 v :: ops →
    takeTurn .host s = hostWrite off v { s with host := ops }) ∧
  ∀ (s : State) (v : Word),
    hostWrite 0x00 v s = cmdWrite v s ∧
    hostRead 0x00 s = 0 ∧
    (∀ off, 0x24 ≤ off → hostRead off s = 0 ∧ hostWrite off v s = .next s) ∧
    (∀ off ∈ [0x08, 0x18, 0x1C, 0x20], hostWrite off v s = .next s) ∧
    hostWrite 0x0C v s = .next { s with fbBase := v } ∧ hostRead 0x0C { s with fbBase := v } = v ∧
    hostWrite 0x10 v s = .next { s with fbLen := v } ∧ hostRead 0x10 { s with fbLen := v } = v ∧
    hostWrite 0x14 v s = .next { s with busyTimeout := v } ∧ hostRead 0x14 { s with busyTimeout := v } = v ∧
    hostRead 0x08 s = s.result ∧ hostRead 0x18 s = s.lastTemp ∧ hostRead 0x1C s = s.stageMs ∧
    hostRead 0x20 s = s.stRaw

/-- STATUS (R24): each field at its bits, reserved bits 0, SESSION in its codes Off = 0, PoweringUp = 1, Ready = 2,
PoweringDown = 3, Faulted = 4 (R25's numbers); a write with bit 4 set clears OVERRUN, a write with bit 4 clear leaves it,
and every other bit of the written word is ignored; every field is 0 after reset. -/
def Obligations.StatusRegister : Prop :=
  ∀ (s : State) (v : Word),
    hostRead 0x04 s = statusWord s ∧
    (statusWord s).extractLsb' 0 3 = (match s.session with
      | .off => 0 | .poweringUp => 1 | .ready => 2 | .poweringDown => 3 | .faulted => 4) ∧
    (statusWord s).getLsbD 3 = s.busy ∧
    (statusWord s).getLsbD 4 = s.overrun ∧ (statusWord s).extractLsb' 5 3 = 0 ∧
    (statusWord s).getLsbD 8 = s.selfTest.valid ∧ (statusWord s).getLsbD 9 = s.selfTest.driverIdValid ∧
    (statusWord s).getLsbD 10 = s.selfTest.breakageDetected ∧ (statusWord s).getLsbD 11 = s.selfTest.dcLevelOk ∧
    (statusWord s).getLsbD 12 = s.selfTest.evalDriverId ∧ (statusWord s).getLsbD 13 = s.selfTest.evalBreakage ∧
    (statusWord s).getLsbD 14 = s.selfTest.evalDc ∧ (statusWord s).extractLsb' 15 17 = 0 ∧
    hostWrite 0x04 v s = .next { s with overrun := if v.getLsbD 4 then false else s.overrun } ∧
    statusWord (hardReset s) = 0 ∧ statusWord (State.resetWith s.par) = 0

/-- An access that is not one aligned 32-bit word of the window is refused, and one that is never is (R52; offsets of 64
and more: log 14). An EXPECT is one 32-bit read (R86). -/
def Obligations.OddAccessRefused : Prop :=
  (∀ (s : State) (off bytes : Nat) (v : Word) (ops : List HostOp), ¬ (bytes = 4 ∧ off % 4 = 0 ∧ off < 64) →
      (s.host = .rd off bytes :: ops ∨ s.host = .wr off bytes v :: ops) → hostTurn s = .refused .badHostAccess) ∧
    (∀ (s : State) (off bytes : Nat) (v : Word) (ops : List HostOp), bytes = 4 ∧ off % 4 = 0 ∧ off < 64 →
      (s.host = .rd off bytes :: ops ∨ s.host = .wr off bytes v :: ops) → hostTurn s ≠ .refused .badHostAccess) ∧
    (∀ (s : State) (off : Nat) (mask v : Word) (ops : List HostOp), s.host = .expect off mask v :: ops →
      (hostTurn s = .refused .badHostAccess ↔ ¬ (off % 4 = 0 ∧ off < 64)))

/-- The words of the command statements and the refusal of a temperature outside −32768..32767 (R85); the `.word`
statement and the host statements, their register given by a name of R21, its nine offsets written out, or by an offset
of R21, reserved offsets too (R86; that the assembler refuses any other offset is log 14); and what the HOST's
WAIT_IDLE and EXPECT do (log 4): WAIT_IDLE reads STATUS and stays the HOST's next operation exactly while BUSY is 1,
EXPECT reads and records whether the masked value is the expected one. -/
def Obligations.HostAssembly : Prop :=
  assemble .nop = some [.wr 0 4 0x00000000] ∧ assemble .powerUp = some [.wr 0 4 0x00000001] ∧
    assemble .powerDown = some [.wr 0 4 0x00000002] ∧ (∀ w, assemble (.word w) = some [.wr 0 4 w]) ∧
    (∀ t : Int, -32768 ≤ t → t ≤ 32767 →
      assemble (.updateFull t) = some [.wr 0 4 ((BitVec.ofInt 16 t ++ (0x0003 : BitVec 16) : BitVec 32))] ∧
      assemble (.updatePartial t) = some [.wr 0 4 ((BitVec.ofInt 16 t ++ (0x0013 : BitVec 16) : BitVec 32))]) ∧
    (∀ t : Int, t < -32768 ∨ 32767 < t → assemble (.updateFull t) = none ∧ assemble (.updatePartial t) = none) ∧
    (∀ base, assemble (.setFb base) = some [.wr 0x0C 4 base, .wr 0x10 4 5808]) ∧
    assemble .clrOverrun = some [.wr 0x04 4 0x00000010] ∧
    (Reg.cmd.offset = 0x00 ∧ Reg.status.offset = 0x04 ∧ Reg.result.offset = 0x08 ∧ Reg.fbBase.offset = 0x0C ∧
      Reg.fbLen.offset = 0x10 ∧ Reg.busyTimeout.offset = 0x14 ∧ Reg.lastTemp.offset = 0x18 ∧
      Reg.stageMs.offset = 0x1C ∧ Reg.stRaw.offset = 0x20) ∧
    (∀ (r : Reg) (m v : Word), assemble (.wr (.name r) v) = some [.wr r.offset 4 v] ∧
      assemble (.rd (.name r)) = some [.rd r.offset 4] ∧
      assemble (.expect (.name r) m v) = some [.expect r.offset m v]) ∧
    (∀ (off : Nat) (m v : Word), off % 4 = 0 → off < 64 → assemble (.wr (.offset off) v) = some [.wr off 4 v] ∧
      assemble (.rd (.offset off)) = some [.rd off 4] ∧
      assemble (.expect (.offset off) m v) = some [.expect off m v]) ∧
    (∀ (off : Nat) (m v : Word), ¬ (off % 4 = 0 ∧ off < 64) → assemble (.wr (.offset off) v) = none ∧
      assemble (.rd (.offset off)) = none ∧ assemble (.expect (.offset off) m v) = none) ∧
    (∀ (s : State) (ops : List HostOp), s.host = .waitIdle :: ops →
      hostTurn s = .next { s with
        host := if s.busy then .waitIdle :: ops else ops
        hostLog := ⟨0x04, statusWord s, true⟩ :: s.hostLog }) ∧
    (∀ (s : State) (off : Nat) (mask v : Word) (ops : List HostOp), s.host = .expect off mask v :: ops →
      off % 4 = 0 → off < 64 →
      hostTurn s = .next { s with
        host := ops
        hostLog := ⟨off, hostRead off s, decide (hostRead off s &&& mask = v)⟩ :: s.hostLog })

/-! ### Acceptance, completion, NOP, reserved opcodes -/

/-- A host write of w to CMD (R87): with BUSY = 1 it only sets OVERRUN; a NOP has no effect; with BUSY = 0 it is exec of
the decoded word, POWER_UP, POWER_DOWN, UPDATE_FULL, UPDATE_PARTIAL, RESERVED_4_7 or RESERVED_8_F, which fills CUR from
its fields and the three host registers, sets BUSY and moves pc to DISPATCH. Nothing else of the machine changes; `race`
is the model's own record (log 9), of which nothing is said. -/
def Obligations.CmdWriteAccepts : Prop :=
  ∀ (s : State) (w : Word),
    (s.busy = true → cmdWrite w s = .next { s with overrun := true }) ∧
    (s.busy = false → opField w = 0 → cmdWrite w s = .next s) ∧
    (s.busy = false → cmdWrite w s = exec (decodeWord w) s) ∧
    (s.busy = false → opField w ≠ 0 →
      ∃ t, exec (decodeWord w) s = .next t ∧ t = { s with
        cur := { op := opField w, mode := modeField w, temp := tempField w, fbb := s.fbBase, fbl := s.fbLen,
                 tmo := s.busyTimeout }
        busy := true
        pc := .dispatch
        race := t.race })

/-- NOP (R91): exec leaves every state as it is; written while BUSY = 1 it sets OVERRUN like any word; 0xFFFFFFF0 is a
NOP; from the reset state it leaves every register at its reset value. -/
def Obligations.NopHasNoEffect : Prop :=
  (∀ (x : BitVec 28) (s : State), exec (.nop x) s = .next s) ∧
    (∀ (x : BitVec 28) (s : State), s.busy = true →
      cmdWrite (encode (.nop x)) s = .next { s with overrun := true }) ∧
    decodeWord 0xFFFFFFF0 = .nop 0xFFFFFFF ∧ cmdWrite 0x00000000 State.reset = .next State.reset

/-- RESERVED (R92), RESERVED_4_7 and RESERVED_8_F in every session: issued on an idle engine the command is accepted,
and the first ENGINE step after dispatch writes RESULT with KIND 5 and the reserved OP and clears BUSY. Session, record,
lines, update context, events and memory reads stay. -/
def Obligations.ReservedIsIllegal : Prop :=
  ∀ (s : State) (op : BitVec 4) (x : BitVec 28) (i : Instr),
    (i = .reserved4to7 op x ∨ i = .reserved8toF op x) → i.wf = true → s.busy = false →
    ∃ a t, exec i s = .next a ∧ a.busy = true ∧ a.cur.op = op ∧ a.result = s.result ∧
      exec i a = .next t ∧ engineTurn a = .next t ∧
      t = { a with result := t.result, busy := false, pc := .idle, race := t.race } ∧
      resultValid t.result = 1 ∧ resultKind t.result = 5 ∧ resultOp t.result = op ∧ resultCheck t.result = 0 ∧
      resultStage t.result = 0 ∧ resultLine t.result = 0 ∧
      t.session = s.session ∧ t.selfTest = s.selfTest ∧ t.stRaw = s.stRaw ∧ t.lines = s.lines ∧ t.upd = s.upd ∧
      t.events = s.events ∧ t.fbReads = s.fbReads ∧ t.mem = s.mem

/-- A word written to CMD while BUSY = 1 sets OVERRUN and has no other effect, and OVERRUN stays 1 until the HOST writes
STATUS with bit 4 set or a reset occurs (R93). -/
def Obligations.OverrunIsSticky : Prop :=
  (∀ (s : State) (w : Word), s.busy = true → cmdWrite w s = .next { s with overrun := true }) ∧
    (∀ (s t : State) (u : Turn), s.overrun = true → takeTurn u s = .next t → t.overrun = false →
      u = .rst ∨ (u = .host ∧ ∃ v ops, s.host = .wr 0x04 4 v :: ops ∧ v.getLsbD 4 = true))

/-- Completion (R89), for POWER_UP, POWER_DOWN, UPDATE_FULL, UPDATE_PARTIAL, RESERVED_4_7 and RESERVED_8_F: one ENGINE
step at COMPLETE writes RESULT with VALID = 1, the OP of CUR, the fields reported and every other bit 0, clears BUSY
and returns pc to IDLE, and leaves everything else. And over the whole machine, in every state: RESULT changes (R28), and
BUSY goes from 1 to 0 (R26), only by a reset or by an ENGINE turn that ends the command in flight; BUSY goes from 0 to 1
only by the HOST's CMD write of a word that is no NOP. -/
def Obligations.CompletionStep : Prop :=
  (∀ (s t : State) (u : Turn), takeTurn u s = .next t → t.result ≠ s.result ∨ (s.busy = true ∧ t.busy = false) →
    u = .rst ∨ (u = .engine ∧ s.busy = true ∧ t.busy = false ∧ t.pc = .idle)) ∧
  (∀ (s t : State) (u : Turn), takeTurn u s = .next t → s.busy = false → t.busy = true →
    u = .host ∧ ∃ w ops, s.host = .wr 0x00 4 w :: ops ∧ opField w ≠ 0) ∧
  ∀ (i : Instr) (s : State) (kind : Kind) (check : BitVec 2) (stage : BitVec 4) (line : BitVec 8),
    (∀ x, i ≠ .nop x) → s.busy = true → s.pc = .complete kind check stage line →
    ∃ t, exec i s = .next t ∧ t = { s with result := t.result, busy := false, pc := .idle, race := t.race } ∧
      resultValid t.result = 1 ∧ resultOp t.result = s.cur.op ∧ resultLine t.result = line ∧
      resultStage t.result = stage ∧ resultCheck t.result = check ∧ resultKind t.result = kind.code ∧
      t.result.extractLsb' 3 1 = 0 ∧ t.result.extractLsb' 6 2 = 0 ∧ t.result.extractLsb' 12 4 = 0 ∧
      t.result.extractLsb' 28 3 = 0

/-- NOT_READY (R146): UPDATE outside Ready, POWER_DOWN in Off and POWER_UP in Ready complete in their first ENGINE step
with KIND 3, no event and no other state change. INVALID_INPUT (R147): an UPDATE in session Ready with CUR.FBL other
than 5808 completes in its first ENGINE step with KIND 4, before any MemRead or event; so the session is tested before
the length (R129, R150). With CUR.FBL = 5808 it goes on to the latch. -/
def Obligations.NotReadyAndInvalidInput : Prop :=
  ∀ (s : State), s.busy = true → s.pc = .dispatch →
    (∀ i : Instr,
      ((∃ t r, i = .updateFull t r ∨ i = .updatePartial t r) ∧ s.session ≠ .ready) ∨
      ((∃ x, i = .powerDown x) ∧ s.session = .off) ∨ ((∃ x, i = .powerUp x) ∧ s.session = .ready) →
      ∃ t, exec i s = .next t ∧
        t = { s with
          result := resultWord s.cur.op .notReady 0 0 0, busy := false, pc := .idle, race := t.race } ∧
        resultKind t.result = 3 ∧ resultValid t.result = 1 ∧ resultOp t.result = s.cur.op) ∧
    (∀ (temp : BitVec 16) (r : BitVec 11) (i : Instr), (i = .updateFull temp r ∨ i = .updatePartial temp r) →
      s.session = .ready →
      (s.cur.fbl ≠ 5808 →
        ∃ t, exec i s = .next t ∧
          t = { s with
            result := resultWord s.cur.op .invalidInput 0 0 0, busy := false, pc := .idle, race := t.race } ∧
          resultKind t.result = 4 ∧ resultValid t.result = 1 ∧ resultOp t.result = s.cur.op) ∧
      (s.cur.fbl = 5808 → exec i s = .next { s with pc := .latch }))

/-! ### Power sequencer -/

/-- How POWER_UP and POWER_DOWN begin (R122, R123, R125): POWER_UP in Off clears the record and starts the power-up
list; POWER_UP in Faulted and POWER_DOWN in Ready or Faulted start the power-down list. That the choice of the path,
SESSION, the record and the first position are one ENGINE step is the model's choice (log 29). -/
def Obligations.PowerCommandsStart : Prop :=
  ∀ (s : State) (x : BitVec 28), s.busy = true → s.pc = .dispatch →
    (s.session = .off → exec (.powerUp x) s = .next { s with
      session := .poweringUp, selfTest := SelfTest.cleared, stRaw := 0, pc := .pu 1 0 }) ∧
    (s.session = .faulted → exec (.powerUp x) s = .next { s with session := .poweringDown, pc := .pd 1 0 }) ∧
    (s.session = .ready ∨ s.session = .faulted →
      exec (.powerDown x) s = .next { s with session := .poweringDown, pc := .pd 1 0 })

/-- Running a sequencer step emits exactly its events, one per ENGINE step (R117): at step i, event ev of PU_LIST under
POWER_UP, and of PD_LIST under POWER_UP and POWER_DOWN, the event of that index is appended, pc moves to the next
index, a SetLine moves its line, a read exchange binds rx to the byte its event records (R66), a Delay latches NOW and
its length (R64, in its own step: log 2), and nothing else of the EPE changes. After the last event of a LINE, a REGW or
a WAIT that no longer holds, pc moves to step i + 1 and nothing else changes. -/
def Obligations.SequencerEmits : Prop :=
  (∀ (s : State) (x : BitVec 28) (i ev : Nat) (st : SeqStep) (a : Act), s.busy = true →
    (st.acts s.par)[ev]? = some a →
    ∀ p q : Pc, (p = .pu i ev ∧ q = .pu i (ev + 1) ∧ (puList s.par)[i - 1]? = some st) ∨
      (p = .pd i ev ∧ q = .pd i (ev + 1) ∧ (pdList s.par)[i - 1]? = some st) → s.pc = p →
    ∃ t, exec (.powerUp x) s = .next t ∧ (p = .pd i ev → exec (.powerDown x) s = .next t) ∧ t.pc = q ∧
      trace t = a.event :: trace s ∧
      t = { s with pc := t.pc, events := t.events, lines := t.lines, rx := t.rx, rxQueue := t.rxQueue,
                   draws := t.draws, tDelay0 := t.tDelay0, nDelay := t.nDelay } ∧
      (∀ name level, a = .setLine name level → t.lines = setLevel s.lines name level) ∧
      ((∀ name level, a ≠ .setLine name level) → t.lines = s.lines) ∧
      (∀ tx, a = .read tx → t.events = .spiByte tx t.rx :: s.events) ∧
      ((∀ tx, a ≠ .read tx) → t.rx = s.rx ∧ t.rxQueue = s.rxQueue) ∧
      (∀ n, a = .delay n → t.tDelay0 = s.now ∧ t.nDelay = n) ∧
      ((∀ n, a ≠ .delay n) → t.tDelay0 = s.tDelay0 ∧ t.nDelay = s.nDelay)) ∧
  (∀ (s : State) (x : BitVec 28) (i ev : Nat) (st : SeqStep), s.busy = true → (st.acts s.par).length ≤ ev →
    (∀ c, st ≠ .check c) → (∀ n, st = .wait n → held s = false) →
    (s.pc = .pu i ev → (puList s.par)[i - 1]? = some st →
      exec (.powerUp x) s = .next { s with pc := .pu (i + 1) 0 }) ∧
    (s.pc = .pd i ev → (pdList s.par)[i - 1]? = some st →
      exec (.powerUp x) s = .next { s with pc := .pd (i + 1) 0 } ∧
      exec (.powerDown x) s = .next { s with pc := .pd (i + 1) 0 }))

/-- The self-test specification table (R118): the masks and expected values, the panel registers read, the codes and the
order of the checks in PU_LIST. -/
def Obligations.SelfTestTable : Prop :=
  (∀ v : Byte, (checkPasses .driverId v = true ↔ v &&& 0x0F = 0x02) ∧
      (checkPasses .breakage v = true ↔ v &&& 0x80 = 0x80) ∧ (checkPasses .dcLevel v = true ↔ v &&& 0x40 = 0x00)) ∧
    checkCode .driverId = 0 ∧ checkCode .breakage = 1 ∧ checkCode .dcLevel = 2 ∧
    (∀ p : Params, checkIndex p .driverId = p.idxDriverId ∧ checkIndex p .breakage = p.idxBreakage ∧
      checkIndex p .dcLevel = p.idxDc ∧
      (puList p).filter (fun st => match st with | .check _ => true | _ => false) =
        [.check .driverId, .check .breakage, .check .dcLevel]) ∧
    refcfg.idxDriverId = 0x00 ∧ refcfg.idxBreakage = 0x0F ∧ refcfg.idxDc = 0x0F

/-- CHECK(c) after its read (R119), v the byte read: ST_RAW[c] and EVAL_c are written and the result bit of c takes the
outcome. On a pass the list goes on; on a failure SESSION is Faulted, ST_VALID is 1, and the next ENGINE step completes
with SELFTEST_FAILURE and the check's code. Neither step emits an event or moves a line. That the evaluation is one
ENGINE step is the model's choice (log 29). -/
def Obligations.CheckIsEvaluated : Prop :=
  ∀ (s : State) (x : BitVec 28) (i ev : Nat) (c : Check), s.busy = true → s.pc = .pu i ev →
    (puList s.par)[i - 1]? = some (.check c) → 8 ≤ ev →
    (checkPasses c s.rx = true →
      exec (.powerUp x) s = .next { s with
        selfTest := (match c with
          | .driverId => { s.selfTest with evalDriverId := true, driverIdValid := true }
          | .breakage => { s.selfTest with evalBreakage := true, breakageDetected := false }
          | .dcLevel => { s.selfTest with evalDc := true, dcLevelOk := true })
        stRaw := rawWith s.stRaw c s.rx
        pc := .pu (i + 1) 0 }) ∧
    (checkPasses c s.rx = false → ∃ t u, exec (.powerUp x) s = .next t ∧ exec (.powerUp x) t = .next u ∧
      t = { s with
        selfTest := (match c with
          | .driverId => { s.selfTest with evalDriverId := true, driverIdValid := false, valid := true }
          | .breakage => { s.selfTest with evalBreakage := true, breakageDetected := true, valid := true }
          | .dcLevel => { s.selfTest with evalDc := true, dcLevelOk := false, valid := true })
        stRaw := rawWith s.stRaw c s.rx
        session := .faulted
        pc := t.pc } ∧
      u = { t with result := resultWord s.cur.op .selftestFailure (checkCode c) 0 0, busy := false, pc := .idle,
                   race := u.race }) ∧
    (∀ d, rawLane (rawWith s.stRaw c s.rx) d = if d = c then s.rx else rawLane s.stRaw d)

/-- The end of the lists (R122, R123, R125): after PU_LIST, SESSION is Ready and ST_VALID is 1; after PD_LIST, SESSION is
Off and the record and ST_RAW are cleared, POWER_DOWN completes with OK and POWER_UP goes on to the power-up. That the
closing assignments of a list, and those that begin the power-up, are one ENGINE step each is the model's choice
(log 29). -/
def Obligations.ListsEnd : Prop :=
  ∀ (s : State) (x : BitVec 28) (ev : Nat), s.busy = true →
    (s.pc = .pu 15 ev → exec (.powerUp x) s = .next { s with
      session := .ready, selfTest := { s.selfTest with valid := true }, pc := .complete .ok 0 0 0 }) ∧
    (s.pc = .pd 10 ev → exec (.powerDown x) s = .next { s with
      session := .off, selfTest := SelfTest.cleared, stRaw := 0, pc := .complete .ok 0 0 0 }) ∧
    (s.pc = .pd 10 ev → ∃ t, exec (.powerUp x) s = .next t ∧
      t = { s with session := .off, selfTest := SelfTest.cleared, stRaw := 0, pc := .puStart } ∧
      exec (.powerUp x) t = .next { t with session := .poweringUp, pc := .pu 1 0 })

/-- POWER_UP from Off runs to its completion (R122, R120, R144): whatever three bytes the panel answers, ENGINE and
CLOCK turns lead to exactly the outcome of the first failing check, or OK. The events are the steps up to the failing
check and no more, or all of PU_LIST, which R120 gives step by step: its 49 events are written out, the first 16 being
those up to the driver-ID check, the first 24 those up to the breakage check. -/
def Obligations.PowerUpRuns : Prop :=
  (∀ (s : State) (v0 v1 v2 : Byte) (more : List Byte), Inv s → s.pc = .dispatch → s.cur.op = 1 → s.session = .off →
    s.rxQueue = v0 :: v1 :: v2 :: more →
    ∃ (turns : List Turn) (t : State), (∀ u ∈ turns, u = .engine ∨ u = .clock) ∧ runTurns turns s = .next t ∧
      t.busy = false ∧ t.pc = .idle ∧ t.mem = s.mem ∧ t.overrun = s.overrun ∧ t.upd = s.upd ∧ t.par = s.par ∧
      powerUpEnds v0 v1 v2 (trace s) t) ∧
  (∀ p : Params,
    let wire : Byte → Byte → Byte → List Event := fun idx hdr val =>
      [.setLine .cs true, .spiByte 0x70 0, .spiByte idx 0, .setLine .cs false,
        .setLine .cs true, .spiByte hdr 0, .spiByte val 0, .setLine .cs false]
    listEvents p (puList p) =
      [.setLine .ioEnable true, .setLine .enable true, .delay p.tPwrOn, .setLine .border true, .setLine .reset true,
        .delay p.tRstAssert, .setLine .reset false, .delay p.tRstRelease] ++
      wire p.idxDriverId p.readHdr p.readFill ++ wire p.idxBreakage p.readHdr p.readFill ++
      wire p.idxOsc p.dataHdr p.valOscOn ++ wire p.idxCp p.dataHdr p.valCpOn ++ [.delay p.tCpSettle] ++
      wire p.idxDc p.readHdr p.readFill ∧
    listEvents p ((puList p).take 9) = (listEvents p (puList p)).take 16 ∧
    listEvents p ((puList p).take 10) = (listEvents p (puList p)).take 24)

/-- POWER_DOWN from Ready or Faulted runs to its completion (R125, R121, R126): ENGINE and CLOCK turns lead to RESULT
0x82000000, session Off, the record cleared and every line at 0, and the events are exactly those of PD_LIST in order:
oscillator and charge pump off, DISCHARGE for its dwell, then the enable lines. -/
def Obligations.PowerDownRuns : Prop :=
  ∀ s : State, Inv s → s.pc = .dispatch → s.cur.op = 2 → s.session = .ready ∨ s.session = .faulted →
    ∃ (turns : List Turn) (t : State), (∀ u ∈ turns, u = .engine ∨ u = .clock) ∧ runTurns turns s = .next t ∧
      t.busy = false ∧ t.pc = .idle ∧ t.result = 0x82000000 ∧ t.session = .off ∧
      t.selfTest = SelfTest.cleared ∧ t.stRaw = 0 ∧ t.lines = Lines.down ∧ t.mem = s.mem ∧ t.overrun = s.overrun ∧
      trace t = (listEvents s.par (pdList s.par)).reverse ++ trace s ∧
      listEvents s.par (pdList s.par) =
        ((regWrite s.par s.par.idxOsc s.par.valOscOff).map Act.event) ++
        ((regWrite s.par s.par.idxCp s.par.valCpOff).map Act.event) ++
        [.setLine .discharge true, .delay s.par.tDischarge, .setLine .discharge false, .setLine .border false,
          .setLine .reset false, .setLine .enable false, .setLine .ioEnable false]

/-! ### Temperature -/

/-- TEMP_BUCKET (R111): each bucket's range of degrees, every breakpoint in the bucket below it; the lookup is monotone
(R112); and the temperature operand is the signed value of its field, −32768 to 32767 (R79). -/
def Obligations.BucketRanges : Prop :=
  (∀ t : Int,
    (bucket t = 0 ↔ t ≤ -10) ∧ (bucket t = 1 ↔ -10 < t ∧ t ≤ -5) ∧ (bucket t = 2 ↔ -5 < t ∧ t ≤ 5) ∧
    (bucket t = 3 ↔ 5 < t ∧ t ≤ 10) ∧ (bucket t = 4 ↔ 10 < t ∧ t ≤ 15) ∧ (bucket t = 5 ↔ 15 < t ∧ t ≤ 20) ∧
    (bucket t = 6 ↔ 20 < t ∧ t ≤ 40) ∧ (bucket t = 7 ↔ 40 < t)) ∧
  (∀ t u : Int, t ≤ u → (bucket t).toNat ≤ (bucket u).toNat) ∧
  (∀ temp : BitVec 16, degrees temp = temp.toInt ∧ -32768 ≤ degrees temp ∧ degrees temp ≤ 32767)

/-- STAGE_DURATION (R115): (SCALE(mode) × FACTOR10[i]) div 10 with no overflow of the 32-bit product, where SCALE is
SCALE_FULL for Full and SCALE_PARTIAL for Partial (R114) and FACTOR10[i] is entry i of the table (R113). -/
def Obligations.StageDurationExact : Prop :=
  ∀ (p : Params) (i : BitVec 3),
    (stageDuration p .full i).toNat = p.scaleFull.toNat * (p.factor10[i.toNat]'i.isLt).toNat / 10 ∧
    (stageDuration p .partialUpd i).toNat = p.scalePartial.toNat * (p.factor10[i.toNat]'i.isLt).toNat / 10 ∧
    p.scaleFull.toNat * (p.factor10[i.toNat]'i.isLt).toNat < 2 ^ 32 ∧
    p.scalePartial.toNat * (p.factor10[i.toNat]'i.isLt).toNat < 2 ^ 32 ∧
    scale p .full = p.scaleFull ∧ scale p .partialUpd = p.scalePartial ∧ factor p i = p.factor10[i.toNat]'i.isLt

/-- UPDATE latch (R130), one ENGINE step of UPDATE_FULL and UPDATE_PARTIAL: the update context, LAST_TEMP and STAGE_MS
from CUR; no event, nothing else (K = 1 is the first stage of R131). -/
def Obligations.UpdateLatches : Prop :=
  ∀ (s : State) (temp : BitVec 16) (r : BitVec 11) (i : Instr), (i = .updateFull temp r ∨ i = .updatePartial temp r) →
    s.busy = true → s.pc = .latch →
    ∃ t, exec i s = .next t ∧ t = { s with upd := t.upd, lastTemp := t.lastTemp, stageMs := t.stageMs, pc := .stageStart } ∧
      t.upd = { s.upd with
        modeL := if s.cur.mode = 0 then .full else .partialUpd
        tempL := s.cur.temp
        bucketL := bucket s.cur.temp.toInt
        stageMsL := stageDuration s.par (if s.cur.mode = 0 then .full else .partialUpd) (bucket s.cur.temp.toInt)
        fbBaseL := s.cur.fbb
        timeoutL := s.cur.tmo
        k := 1 } ∧
      t.lastTemp.extractLsb' 0 16 = s.cur.temp ∧ t.lastTemp.extractLsb' 16 3 = bucket s.cur.temp.toInt ∧
      t.lastTemp.extractLsb' 19 13 = 0 ∧
      t.stageMs = stageDuration s.par (if s.cur.mode = 0 then .full else .partialUpd) (bucket s.cur.temp.toInt)

/-- What the latch wrote holds until the next accepted update (R116, R130): no turn but a reset, and no ENGINE step but
the one at the latch, changes it. -/
def Obligations.LatchHolds : Prop :=
  ∀ (s t : State) (u : Turn), takeTurn u s = .next t → u ≠ .rst → ¬ (u = .engine ∧ s.pc = .latch) →
    t.upd.modeL = s.upd.modeL ∧ t.upd.tempL = s.upd.tempL ∧ t.upd.bucketL = s.upd.bucketL ∧
    t.upd.stageMsL = s.upd.stageMsL ∧ t.upd.fbBaseL = s.upd.fbBaseL ∧ t.upd.timeoutL = s.upd.timeoutL ∧
    t.lastTemp = s.lastTemp ∧ t.stageMs = s.stageMs

/-! ### Frame buffer -/

/-- MemRead of byte b of row R (R57, R106): one ENGINE step of UPDATE_FULL and UPDATE_PARTIAL reads the address
(FB_BASE_L + 33 R + b) mod 2^32 into S[b], emits no event and writes no memory. -/
def Obligations.RowIsFetched : Prop :=
  ∀ (s : State) (temp : BitVec 16) (r : BitVec 11) (b : Nat) (i : Instr),
    (i = .updateFull temp r ∨ i = .updatePartial temp r) → s.busy = true → s.pc = .fetch b → b ≤ 32 →
    ∃ t, exec i s = .next t ∧
      t.fbReads = ((s.upd.fbBaseL.toNat + 33 * s.upd.r.toNat + b) % 2 ^ 32,
        memByte s (s.upd.fbBaseL + BitVec.ofNat 32 (33 * s.upd.r.toNat + b))) :: s.fbReads ∧
      t.rowBuf[b]? = some (memByte s (s.upd.fbBaseL + BitVec.ofNat 32 (33 * s.upd.r.toNat + b))) ∧
      (∀ j, j ≠ b → t.rowBuf[j]? = s.rowBuf[j]?) ∧
      t.pc = (if b < 32 then .fetch (b + 1) else .encode) ∧
      t = { s with rowBuf := t.rowBuf, fbReads := t.fbReads, draws := t.draws, pc := t.pc }

/-- What a frame-buffer read may return (R72, R56): the byte memory holds if the host has not written the address since
the CMD write; in general one of the bytes memory has held since then, or any byte where the address was not backed. A
host write while a command runs adds its byte to what may be returned and takes none away. The record starts empty at the
CMD write of a command, so every backed address then reads what memory holds, and a host write while none runs adds
nothing to it. The HOST's turn with a memory write next is that write (`hostMemWrite`; log 24). The record is the model's
(log 9). -/
def Obligations.ReadsAreAdmitted : Prop :=
  (∀ (s : State) (a : Word) (v : Byte), s.mem.read a.toNat = some v → (∀ e ∈ s.race, e.1 ≠ a.toNat) →
      memByte s a = v) ∧
    (∀ (s : State) (a : Word), some (memByte s a) ∈ admitted s a.toNat ∨ none ∈ admitted s a.toNat) ∧
    (∀ (s : State) (a : Word) (v : Byte), s.busy = true →
      admitted (hostMemWrite a v s) a.toNat = some v :: admitted s a.toNat) ∧
    (∀ (s : State) (w : Word), s.busy = false → opField w ≠ 0 → ∃ t, exec (decodeWord w) s = .next t ∧ t.race = [] ∧
      (∀ (a : Word) (v : Byte), s.mem.read a.toNat = some v → memByte t a = v)) ∧
    (∀ (s : State) (a : Word) (v : Byte), s.busy = false → (hostMemWrite a v s).race = s.race) ∧
    (∀ (s : State) (a : Word) (v : Byte) (ops : List HostOp), s.host = .memWr a v :: ops →
      takeTurn .host s = .next (hostMemWrite a v { s with host := ops }))

/-- Memory changes only by the HOST's write of a byte: the EPE never writes it (R49), and neither does a CLOCK turn, a
reset, a short transport or any other host operation. What such a write does is the model's choice of log 24: the byte is
read back at once, at a backed address or not, and every other address reads as before. -/
def Obligations.OnlyTheHostWritesMemory : Prop :=
  (∀ (s t : State) (u : Turn), takeTurn u s = .next t → ¬ (u = .host ∧ ∃ a v ops, s.host = .memWr a v :: ops) →
      t.mem = s.mem) ∧
    (∀ (s : State) (a : Word) (v : Byte) (ops : List HostOp), s.host = .memWr a v :: ops →
      ∃ t, hostTurn s = .next t ∧ t.mem.read a.toNat = some v ∧ (∀ b, b ≠ a.toNat → t.mem.read b = s.mem.read b))

/-! ### Line encoder -/

/-- The EncodedLine by offset in both line layouts (R84, R104). LINE_LAYOUT = SCAN_DATA_DUMMY: scan bytes at 0 to 43, E_b
at 44 + (32 − b), O_b at 77 + b, the dummy byte at 110. LINE_LAYOUT = EVEN_SCAN_ODD_DUMMY: E_b at 32 − b, scan bytes at
33 to 76, O_b at 77 + b, the dummy byte at 110. And the bit pairs of E_b and O_b (R100): column 8b + 2k at [7−2k :
6−2k] of E_b, column 8b + 2k + 1 at [2k+1 : 2k] of O_b, whatever the pixel source. -/
def Obligations.LineByOffset : Prop :=
  (∀ (p : Params) (r : BitVec 8) (ps : PixelSource) (src : Vector Byte 33), p.lineLayout = .scanDataDummy →
    (encodeLine p r ps src).toList.length = 111 ∧
    (∀ j, j < 44 → (encodeLine p r ps src).toList[j]? =
      some (if j = r.toNat / 4 then p.scanPattern[r.toNat % 4]'(Nat.mod_lt _ (by decide)) else 0)) ∧
    (∀ b, b ≤ 32 → (encodeLine p r ps src).toList[44 + (32 - b)]? = some (evenByte p ps src b)) ∧
    (∀ b, b ≤ 32 → (encodeLine p r ps src).toList[77 + b]? = some (oddByte p ps src b)) ∧
    (encodeLine p r ps src).toList[110]? = some p.dummyByte) ∧
  (∀ (p : Params) (r : BitVec 8) (ps : PixelSource) (src : Vector Byte 33), p.lineLayout = .evenScanOddDummy →
    (encodeLine p r ps src).toList.length = 111 ∧
    (∀ b, b ≤ 32 → (encodeLine p r ps src).toList[32 - b]? = some (evenByte p ps src b)) ∧
    (∀ j, j < 44 → (encodeLine p r ps src).toList[33 + j]? =
      some (if j = r.toNat / 4 then p.scanPattern[r.toNat % 4]'(Nat.mod_lt _ (by decide)) else 0)) ∧
    (∀ b, b ≤ 32 → (encodeLine p r ps src).toList[77 + b]? = some (oddByte p ps src b)) ∧
    (encodeLine p r ps src).toList[110]? = some p.dummyByte) ∧
  (∀ (p : Params) (ps : PixelSource) (src : Vector Byte 33) (b k : Nat), b ≤ 32 → k < 4 →
    (evenByte p ps src b).extractLsb' (6 - 2 * k) 2 = codeAt p ps src (8 * b + 2 * k) ∧
    (oddByte p ps src b).extractLsb' (2 * k) 2 = codeAt p ps src (8 * b + 2 * k + 1))

/-- The drive codes of a line, in both line layouts, for every row and column. The pixel source of each stage kind is that
of R97; the code of a column of an image line is that of its pixel's colour in the table of R98 (NORM: black DRIVE_BLACK,
white DRIVE_WHITE; INV: black DRIVE_NOCHANGE, white DRIVE_BLACK), the pixel being the bit of R94 and its colour that of
R95. And the inverse mapping (R109): every pixel of the source row is read back through the map. -/
def Obligations.PixelsRoundTrip : Prop :=
  (∀ p : Params, pixelSource p .comp = .uniform p.driveBlack ∧ pixelSource p .white = .uniform p.driveWhite ∧
    pixelSource p .inverse = .image .inv ∧ pixelSource p .normal = .image .norm) ∧
  (∀ (p : Params) (r : BitVec 8) (src : Vector Byte 33) (c : Nat), c < 264 →
    lineCode p (encodeLine p r (.image .norm) src).toList c =
      (if (src[c / 8]?.getD 0).getLsbD (7 - c % 8) = p.pixelOneIsBlack then p.driveBlack else p.driveWhite) ∧
    lineCode p (encodeLine p r (.image .inv) src).toList c =
      (if (src[c / 8]?.getD 0).getLsbD (7 - c % 8) = p.pixelOneIsBlack then p.driveNoChange else p.driveBlack)) ∧
  (∀ (p : Params) (r : BitVec 8) (m : ImageMap) (src : Vector Byte 33) (c : Nat), p.codesDistinct = true → c < 264 →
    pixelOfCode p m (lineCode p (encodeLine p r (.image m) src).toList c) = (src[c / 8]?.getD 0).getLsbD (7 - c % 8))

/-- A UNIFORM(u) line (R107), in both line layouts: each of its 66 data bytes is four copies of u, 0xFF for drive code 3
and 0xAA for drive code 2, whatever the source row; under REFCFG these are the codes of the stages COMP and WHITE. -/
def Obligations.UniformLines : Prop :=
  (∀ (p : Params) (r : BitVec 8) (u : BitVec 2) (src : Vector Byte 33) (b : Nat), b ≤ 32 →
      (encodeLine p r (.uniform u) src).toList[evenOffset p b]? = some (u ++ u ++ u ++ u) ∧
      (encodeLine p r (.uniform u) src).toList[oddOffset b]? = some (u ++ u ++ u ++ u)) ∧
    (∀ (p : Params) (r : BitVec 8) (u : BitVec 2) (src src' : Vector Byte 33),
      encodeLine p r (.uniform u) src = encodeLine p r (.uniform u) src') ∧
    ((3 : BitVec 2) ++ (3 : BitVec 2) ++ (3 : BitVec 2) ++ (3 : BitVec 2) = (0xFF : BitVec 8)) ∧
    ((2 : BitVec 2) ++ (2 : BitVec 2) ++ (2 : BitVec 2) ++ (2 : BitVec 2) = (0xAA : BitVec 8)) ∧
    pixelSource refcfg .comp = .uniform 3 ∧ pixelSource refcfg .white = .uniform 2

/-- The scan bytes select one row (R103): with four scan patterns that are not 0 and pairwise distinct, two rows of the
panel have the same scan bytes only if they are the same row, and each row has exactly one scan byte that is not 0. -/
def Obligations.ScanSelectsOneRow : Prop :=
  ∀ p : Params, p.scanPattern.toList.Nodup → (∀ v ∈ p.scanPattern.toList, v ≠ 0) →
    (∀ r r' : BitVec 8, r.toNat ≤ 175 → r'.toNat ≤ 175 → scanBytes p r = scanBytes p r' → r = r') ∧
    (∀ r : BitVec 8, r.toNat ≤ 175 → ((scanBytes p r).filter (fun v => v != 0)).length = 1)

/-- ENCODE_LINE (R106) under UPDATE_FULL and UPDATE_PARTIAL: for the stage K names in the list of the mode, STAGES_FULL
for Full and STAGES_PARTIAL for Partial (R127), an image stage reads its row first and a uniform stage does not; then
LINE_BUF is the line of row R. No event, nothing else. -/
def Obligations.LineIsEncoded : Prop :=
  (∀ p : Params, stagesOf p .full = p.stagesFull ∧ stagesOf p .partialUpd = p.stagesPartial) ∧
  ∀ (s : State) (temp : BitVec 16) (r : BitVec 11) (i : Instr) (k : StageKind),
    (i = .updateFull temp r ∨ i = .updatePartial temp r) → s.busy = true →
    (match s.upd.modeL with | .full => s.par.stagesFull | .partialUpd => s.par.stagesPartial)[s.upd.k.toNat - 1]? =
      some k →
    (s.pc = .row → exec i s = .next { s with
      pc := match k with | .comp => .encode | .white => .encode | .inverse => .fetch 0 | .normal => .fetch 0 }) ∧
    (s.pc = .encode → exec i s = .next { s with
      lineBuf := encodeLine s.par s.upd.r (pixelSource s.par k) s.rowBuf, pc := .line 0 })

/-! ### Wire frames -/

/-- The wire frames written out (R65, R66, R67), and their counts (R68): a REG_WRITE and a REG_READ are 4 exchanges and 4
SetLine events, a LINE_TX is 114 and 4, or 118 and 8 with a commit write, and CS is 0 after every frame. -/
def Obligations.FrameCounts : Prop :=
  (∀ (p : Params) (idx val : Byte) (l : List Byte),
    regWrite p idx val = [.setLine .cs true, .write 0x70, .write idx, .setLine .cs false,
      .setLine .cs true, .write p.dataHdr, .write val, .setLine .cs false] ∧
    regRead p idx = [.setLine .cs true, .write 0x70, .write idx, .setLine .cs false,
      .setLine .cs true, .write p.readHdr, .read p.readFill, .setLine .cs false] ∧
    lineTx p l = [.setLine .cs true, .write 0x70, .write p.idxLine, .setLine .cs false,
      .setLine .cs true, .write p.dataHdr] ++ l.map Act.write ++ [.setLine .cs false] ++
      (match p.lineCommit with | none => [] | some (i, v) => regWrite p i v)) ∧
  ∀ (p : Params) (idx val : Byte) (l : List Byte), l.length = 111 →
    ((regWrite p idx val).countP (fun a => match a with | .write _ => true | .read _ => true | _ => false) = 4 ∧
      (regWrite p idx val).countP (fun a => match a with | .setLine _ _ => true | _ => false) = 4) ∧
    ((regRead p idx).countP (fun a => match a with | .write _ => true | .read _ => true | _ => false) = 4 ∧
      (regRead p idx).countP (fun a => match a with | .setLine _ _ => true | _ => false) = 4) ∧
    (p.lineCommit = none →
      (lineTx p l).countP (fun a => match a with | .write _ => true | .read _ => true | _ => false) = 114 ∧
      (lineTx p l).countP (fun a => match a with | .setLine _ _ => true | _ => false) = 4) ∧
    (p.lineCommit ≠ none →
      (lineTx p l).countP (fun a => match a with | .write _ => true | .read _ => true | _ => false) = 118 ∧
      (lineTx p l).countP (fun a => match a with | .setLine _ _ => true | _ => false) = 8) ∧
    (∀ c, csAfter (regWrite p idx val) c = false ∧ csAfter (regRead p idx) c = false ∧ csAfter (lineTx p l) c = false)

/-- The wire frames of an update, one event per ENGINE step of UPDATE_FULL and UPDATE_PARTIAL (R67, R135, R136): the line
of LINE_BUF, the handshake write, and the dummy line. Each event is appended, CS moves as the frame says, and nothing
else of the EPE changes. After the last event of a stage's line its busy wait WAIT(K, R) begins (R131, R133), and after
the dummy line's the settle wait (R136). -/
def Obligations.UpdateFramesEmit : Prop :=
  (∀ (s : State) (temp : BitVec 16) (r : BitVec 11) (i : Instr) (ev : Nat) (a : Act),
    (i = .updateFull temp r ∨ i = .updatePartial temp r) → s.busy = true →
    (s.pc = .line ev ∧ (lineTx s.par s.lineBuf.toList)[ev]? = some a ∨
      s.pc = .handshake ev ∧ (regWrite s.par s.par.idxTxDone s.par.valTxDone)[ev]? = some a ∨
      s.pc = .settle ev ∧ (lineTx s.par (dummyLine s.par))[ev]? = some a) →
    ∃ t, exec i s = .next t ∧ trace t = a.event :: trace s ∧
      t = { s with pc := t.pc, events := t.events, lines := { s.lines with cs := t.lines.cs }, draws := t.draws } ∧
      t.lines.cs = csAfter [a] s.lines.cs ∧
      (s.pc = .line ev → t.pc = .line (ev + 1)) ∧ (s.pc = .handshake ev → t.pc = .handshake (ev + 1)) ∧
      (s.pc = .settle ev → t.pc = .settle (ev + 1))) ∧
  (∀ (s : State) (temp : BitVec 16) (r : BitVec 11) (i : Instr) (ev : Nat),
    (i = .updateFull temp r ∨ i = .updatePartial temp r) → s.busy = true →
    (s.pc = .line ev → (lineTx s.par s.lineBuf.toList).length ≤ ev →
      exec i s = .next { s with pc := .wait .start }) ∧
    (s.pc = .settle ev → (lineTx s.par (dummyLine s.par)).length ≤ ev →
      exec i s = .next { s with pc := .settleWait .start }))

/-! ### Busy wait and delays -/

/-- BUSY_WAIT(K, R) after a stage's line and BUSY_WAIT(0, 0) of the settle pass (R133, R136), under UPDATE_FULL and
UPDATE_PARTIAL. A sample of 0 returns at once, even past the bound: to the next row or the end of the pass, or to the
completion. A sample of 1 times out exactly when it is taken strictly more than TIMEOUT_L ms after T_WAIT0: SESSION is
Faulted and COMM_TIMEOUT with the wait's stage and line is reported next. Otherwise the poll delay is emitted, held and
followed by the next sample. With TIMEOUT_L = 0xFFFFFFFF no sample times out. That the test and the return belong to the
sample's own ENGINE step is the model's choice of log 2, and that this step also sets the next R is that of log 29. That
an ENGINE turn in the held poll delay leaves the state is that of log 28, and that the hold is the difference at the turn,
and so comes back should NOW wrap around, is that of log 30. -/
def Obligations.BusyWaitSteps : Prop :=
  ∀ (s : State) (temp : BitVec 16) (r : BitVec 11) (i : Instr) (settle : Bool),
    (i = .updateFull temp r ∨ i = .updatePartial temp r) → s.busy = true →
    (s.pc = waitAt settle .start →
      exec i s = .next { s with upd := { s.upd with tWait0 := s.now }, pc := waitAt settle .sample }) ∧
    (s.pc = waitAt settle .sample → ∃ t, exec i s = .next t ∧ t.events = .readBusy (busyLevel s) :: s.events ∧
      t = { s with pc := t.pc, upd := t.upd, session := t.session, events := t.events, busyQueue := t.busyQueue,
                   draws := t.draws } ∧
      (busyLevel s = false → t.session = s.session ∧
        (settle = false → s.upd.r.toNat < 175 → t.pc = .row ∧ t.upd = { s.upd with r := s.upd.r + 1 }) ∧
        (settle = false → 175 ≤ s.upd.r.toNat → t.pc = .passEnd ∧ t.upd = s.upd) ∧
        (settle = true → t.pc = .complete .ok 0 0 0 ∧ t.upd = s.upd)) ∧
      (busyLevel s = true → t.upd = s.upd ∧
        (s.upd.timeoutL.toNat < (s.now - s.upd.tWait0).toNat → t.session = .faulted ∧
          t.pc = if settle then .complete .commTimeout 0 0 0 else .complete .commTimeout 0 s.upd.k s.upd.r) ∧
        ((s.now - s.upd.tWait0).toNat ≤ s.upd.timeoutL.toNat →
          t.session = s.session ∧ t.pc = waitAt settle .delay) ∧
        (s.upd.timeoutL = 0xFFFFFFFF → t.session = s.session ∧ t.pc = waitAt settle .delay))) ∧
    (s.pc = waitAt settle .delay → exec i s = .next { s with
      events := .delay s.par.busyPoll :: s.events, tDelay0 := s.now, nDelay := s.par.busyPoll,
      pc := waitAt settle .hold }) ∧
    (s.pc = waitAt settle .hold → exec i s = .next (if held s then s else { s with pc := waitAt settle .sample }))

/-- COMM_TIMEOUT (R145): a busy sample of 1 taken with elapsed time above TIMEOUT_L after line R of stage K leads, in that
ENGINE step of UPDATE_FULL or UPDATE_PARTIAL and the next, to RESULT with KIND 2, STAGE = K and LINE = R, the session
Faulted, the sample as the last event and every line as it was; in the settle pass it reports stage 0 and line 0. That
SESSION changes in the sample's own step is log 2. -/
def Obligations.TimeoutIsReported : Prop :=
  ∀ (s : State) (temp : BitVec 16) (r : BitVec 11) (i : Instr) (settle : Bool),
    (i = .updateFull temp r ∨ i = .updatePartial temp r) →
    s.busy = true → s.pc = waitAt settle .sample → busyLevel s = true →
    s.upd.timeoutL.toNat < (s.now - s.upd.tWait0).toNat →
    ∃ t u, exec i s = .next t ∧ t.busy = true ∧ exec i t = .next u ∧
      u = { s with session := .faulted, result := u.result, busy := false, pc := .idle, race := u.race,
                   events := .readBusy true :: s.events, busyQueue := u.busyQueue, draws := u.draws } ∧
      resultValid u.result = 1 ∧ resultKind u.result = 2 ∧ resultOp u.result = s.cur.op ∧ resultCheck u.result = 0 ∧
      (settle = false → resultStage u.result = s.upd.k ∧ resultLine u.result = s.upd.r) ∧
      (settle = true → resultStage u.result = 0 ∧ resultLine u.result = 0)

/-- A delay (R64): its event latches NOW and the length; it holds after fewer than n CLOCK turns and no longer after n;
a delay of 0 does not hold; and while it holds, an ENGINE turn changes nothing, at every position that holds: a WAIT of
PU_LIST under POWER_UP, a WAIT of PD_LIST (the discharge dwell, R126) under POWER_UP and POWER_DOWN, the poll delay of a
stage's busy wait and of the settle wait. That the latch is in the event's own step is the model's choice of log 2, and
that a held ENGINE turn leaves the state is that of log 28; that the hold is the difference at the turn, and so comes
back should NOW wrap around, is that of log 30. -/
def Obligations.DelayHolds : Prop :=
  (∀ (s : State) (n : Word), (emit (.delay n) s).events = .delay n :: s.events ∧ (emit (.delay n) s).tDelay0 = s.now ∧
      (emit (.delay n) s).nDelay = n) ∧
    (∀ (s : State) (n : Word) (m : Nat), m ≤ n.toNat → ∃ t,
      runTurns (List.replicate m .clock) (emit (.delay n) s) = .next t ∧ t.now = s.now + BitVec.ofNat 32 m ∧
        (held t = true ↔ m < n.toNat)) ∧
    (∀ (s : State) (i ev : Nat) (n : Word), s.busy = true → held s = true →
      (s.cur.op = 1 ∧ s.pc = .pu i ev ∧ 1 ≤ ev ∧ (puList s.par)[i - 1]? = some (.wait n)) ∨
        ((s.cur.op = 1 ∨ s.cur.op = 2) ∧ s.pc = .pd i ev ∧ 1 ≤ ev ∧ (pdList s.par)[i - 1]? = some (.wait n)) ∨
        (s.cur.op = 3 ∧ ∃ settle, s.pc = waitAt settle .hold) →
      engineTurn s = .next s)

/-! ### Stage loop, handshake, settle -/

/-- The stage loop (R131) under UPDATE_FULL and UPDATE_PARTIAL: a stage latches T_STAGE0 and starts at row 0; the NOW
read after row 175 begins another pass, without a new T_STAGE0, while less than STAGE_MS_L ms have passed; else the next
stage follows, or after the last one the handshake. That the latch with R, and the NOW read with what it sets of K and R,
are one ENGINE step each is the model's choice (log 29). -/
def Obligations.StageLoop : Prop :=
  ∀ (s : State) (temp : BitVec 16) (r : BitVec 11) (i : Instr), (i = .updateFull temp r ∨ i = .updatePartial temp r) →
    s.busy = true →
    (s.pc = .stageStart → exec i s = .next { s with upd := { s.upd with tStage0 := s.now, r := 0 }, pc := .row }) ∧
    (s.pc = .passEnd → (s.now - s.upd.tStage0).toNat < s.upd.stageMsL.toNat →
      exec i s = .next { s with upd := { s.upd with r := 0 }, pc := .row }) ∧
    (s.pc = .passEnd → s.upd.stageMsL.toNat ≤ (s.now - s.upd.tStage0).toNat →
      s.upd.k.toNat < (stagesOf s.par s.upd.modeL).length →
      exec i s = .next { s with upd := { s.upd with k := s.upd.k + 1 }, pc := .stageStart }) ∧
    (s.pc = .passEnd → s.upd.stageMsL.toNat ≤ (s.now - s.upd.tStage0).toNat →
      (stagesOf s.par s.upd.modeL).length ≤ s.upd.k.toNat → exec i s = .next { s with pc := .handshake 0 })

/-- After the handshake (R135, R136): a Full update sends the dummy line and waits as stage 0, line 0, then completes with
OK; a Partial update completes with OK at once. The settle wait returns on a sample of 0 to the completion; that it does
so in the step of its sample is the model's choice (log 2). -/
def Obligations.HandshakeAndSettle : Prop :=
  ∀ (s : State) (temp : BitVec 16) (r : BitVec 11) (i : Instr), (i = .updateFull temp r ∨ i = .updatePartial temp r) →
    s.busy = true →
    (s.pc = .handshake 8 → exec i s = .next { s with
      pc := match s.upd.modeL with | .full => .settle 0 | .partialUpd => .complete .ok 0 0 0 }) ∧
    (∀ ev, s.pc = .settle ev → (lineTx s.par (dummyLine s.par)).length ≤ ev →
      exec i s = .next { s with pc := .settleWait .start }) ∧
    (s.pc = .settleWait .sample → busyLevel s = false → ∃ t, exec i s = .next t ∧ t.pc = .complete .ok 0 0 0 ∧
      t.events = .readBusy false :: s.events ∧ t.fbReads = s.fbReads ∧ t.session = s.session ∧ t.lines = s.lines) ∧
    dummyLine s.par = List.replicate 44 0 ++ List.replicate 66 s.par.dummyLineFill ++ [s.par.dummyByte]

/-- An UPDATE in session Ready with the right length runs to OK (R128, R137, R149) on a panel that is never busy: ENGINE
and CLOCK turns lead to RESULT 0x83000000 with session Ready, the lines, the record, FB_BASE, FB_LEN and memory as
before, LAST_TEMP and STAGE_MS latched, and the handshake as the last frame of a Partial update. -/
def Obligations.UpdateRuns : Prop :=
  ∀ (s : State) (quiet : List Bool), Inv s → s.pc = .dispatch → s.cur.op = 3 → s.session = .ready →
    s.cur.fbl = 5808 →
    s.busyQueue = List.replicate (176 * (stagesOf s.par (modeOfBit s.cur.mode)).length + 1) false ++ quiet →
    ∃ (turns : List Turn) (t : State), (∀ u ∈ turns, u = .engine ∨ u = .clock) ∧ runTurns turns s = .next t ∧
      t.busy = false ∧ t.pc = .idle ∧ t.result = 0x83000000 ∧ t.session = .ready ∧ t.lines = s.lines ∧
      t.selfTest = s.selfTest ∧ t.stRaw = s.stRaw ∧ t.mem = s.mem ∧ t.fbBase = s.fbBase ∧ t.fbLen = s.fbLen ∧
      t.lastTemp = lastTempWord (bucket s.cur.temp.toInt) s.cur.temp ∧
      t.stageMs = stageDuration s.par (modeOfBit s.cur.mode) (bucket s.cur.temp.toInt) ∧
      (s.cur.mode = 1 → ∃ before,
        trace t = ((regWrite s.par s.par.idxTxDone s.par.valTxDone).map Act.event).reverse ++ before)

/-! ### The whole machine -/

/-- Every step keeps the invariant `Inv`: memory canonical, BUSY and pc agreeing, the command, position and session
belonging together, K and R in range, RESULT legal, the lines and CS as the lists and frames give them, the self-test
record agreeing with its bytes and with the session. That the record agrees with the session after each
step rests on the steps that write both at once (log 29). -/
def Obligations.StepKeepsInvariant : Prop :=
  ∀ s t : State, Inv s → step s = .next t → Inv t

/-- The invariant holds at reset. -/
def Obligations.InvariantAtReset : Prop := Inv State.reset

/-- The engine is never stuck (R69, R90, R137): in every state of the invariant an ENGINE turn answers a next state, and
a step stops only for a short transport or a host access outside the interface. -/
def Obligations.EngineIsNeverStuck : Prop :=
  ∀ s : State, Inv s → (∃ t, engineTurn s = .next t) ∧ (∀ f, step s = .fault f → f = .shortWrite) ∧
    (∀ r, step s = .refused r → r = .badHostAccess)

/-- SESSION changes only as the table of R36 says, and each change belongs to its command. -/
def Obligations.SessionTable : Prop :=
  ∀ (s t : State) (u : Turn), Inv s → takeTurn u s = .next t → t.session ≠ s.session →
    (u = .rst ∧ t.session = .off) ∨
    (u = .engine ∧
      ((s.session = .off ∧ t.session = .poweringUp ∧ s.cur.op = 1) ∨
        (s.session = .poweringUp ∧ t.session = .ready ∧ s.cur.op = 1) ∨
        (s.session = .poweringUp ∧ t.session = .faulted ∧ s.cur.op = 1) ∨
        (s.session = .faulted ∧ t.session = .poweringDown ∧ (s.cur.op = 1 ∨ s.cur.op = 2)) ∨
        (s.session = .ready ∧ t.session = .poweringDown ∧ s.cur.op = 2) ∨
        (s.session = .poweringDown ∧ t.session = .off ∧ (s.cur.op = 1 ∨ s.cur.op = 2)) ∨
        (s.session = .ready ∧ t.session = .faulted ∧ s.cur.op = 3)))

/-- Only an ENGINE turn emits, and it emits at most one event (R14); one MemRead at most, never beside an event; and
BUSY = 0 emits none (R89, R162). -/
def Obligations.OneEventPerTurn : Prop :=
  ∀ (s t : State) (u : Turn), takeTurn u s = .next t →
    (t.events = s.events ∨ (u = .engine ∧ s.busy = true ∧ t.fbReads = s.fbReads ∧ ∃ e, t.events = e :: s.events)) ∧
    (t.fbReads = s.fbReads ∨ (u = .engine ∧ s.busy = true ∧ t.events = s.events ∧ ∃ c, t.fbReads = c :: s.fbReads))

/-- A line level changes only by a SetLine event of that line, or by a reset, which emits no event and drives every
level to 0 (R42). -/
def Obligations.LinesMoveBySetLine : Prop :=
  ∀ (s t : State) (u : Turn), takeTurn u s = .next t → t.lines ≠ s.lines →
    (u = .rst ∧ t.lines = Lines.down ∧ t.events = s.events) ∨
    (u = .engine ∧ ∃ name level, t.events = .setLine name level :: s.events ∧ t.lines = setLevel s.lines name level)

/-- No turn changes a parameter (R44), and only a CLOCK turn changes NOW, by 1 (R43). -/
def Obligations.ParametersAndClock : Prop :=
  ∀ (s t : State) (u : Turn), takeTurn u s = .next t →
    t.par = s.par ∧ (u = .clock → t = { s with now := s.now + 1 }) ∧ (u ≠ .clock → t.now = s.now)

/-- Host register writes after acceptance do not change the running command (R71): its ENGINE steps are the same under
any values of FB_BASE, FB_LEN, BUSY_TIMEOUT_MS and OVERRUN. -/
def Obligations.RunningCommandIgnoresHostRegisters : Prop :=
  ∀ (s : State) (a b c : Word) (o : Bool),
    engineTurn { s with fbBase := a, fbLen := b, busyTimeout := c, overrun := o } =
      mapNext (fun u => { u with fbBase := a, fbLen := b, busyTimeout := c, overrun := o }) (engineTurn s)

/-- The self-test record and ST_RAW are written only by the Power Sequencer's ENGINE steps and by reset (R27, R35). -/
def Obligations.RecordWriters : Prop :=
  ∀ (s t : State) (u : Turn), Inv s → takeTurn u s = .next t → t.selfTest ≠ s.selfTest ∨ t.stRaw ≠ s.stRaw →
    u = .rst ∨ (u = .engine ∧ (s.cur.op = 1 ∨ s.cur.op = 2))

/-- What an idle engine shows (R25, R162): with BUSY = 0 the session is Off, Ready or Faulted; in Off every line is 0 and
STATUS is 0 but for OVERRUN; in Ready STATUS is 0x00007B02 but for OVERRUN; CS is 0. -/
def Obligations.IdleEngineShows : Prop :=
  ∀ s : State, Inv s → s.busy = false →
    (s.session = .off ∨ s.session = .ready ∨ s.session = .faulted) ∧ s.lines.cs = false ∧
    (s.session = .off → s.lines = Lines.down ∧ statusWord s = if s.overrun then 0x00000010 else 0) ∧
    (s.session = .ready → statusWord s = if s.overrun then 0x00007B12 else 0x00007B02)

/-- The frame of the ENGINE steps of POWER_UP, POWER_DOWN, UPDATE_FULL, UPDATE_PARTIAL, RESERVED_4_7 and RESERVED_8_F.
None of them changes a host register of its own, OVERRUN, CUR, memory, NOW or the host's queue; POWER and RESERVED steps
leave the update context, LAST_TEMP, STAGE_MS, LINE_BUF and the frame buffer's reads; UPDATE and RESERVED steps leave
the self-test record, ST_RAW and every line but CS. -/
def Obligations.CommandFrames : Prop :=
  ∀ (i : Instr) (s t : State), (∀ x, i ≠ .nop x) → s.busy = true → exec i s = .next t →
    (t.fbBase = s.fbBase ∧ t.fbLen = s.fbLen ∧ t.busyTimeout = s.busyTimeout ∧ t.overrun = s.overrun ∧ t.cur = s.cur ∧
      t.mem = s.mem ∧ (∀ a, t.mem.read a = s.mem.read a) ∧ t.now = s.now ∧ t.host = s.host ∧ t.hostLog = s.hostLog) ∧
    ((∀ a b, i ≠ .updateFull a b ∧ i ≠ .updatePartial a b) →
      t.upd = s.upd ∧ t.lastTemp = s.lastTemp ∧ t.stageMs = s.stageMs ∧ t.lineBuf = s.lineBuf ∧ t.rowBuf = s.rowBuf ∧
        t.fbReads = s.fbReads ∧ t.busyQueue = s.busyQueue) ∧
    ((∀ x, i ≠ .powerUp x ∧ i ≠ .powerDown x) →
      t.selfTest = s.selfTest ∧ t.stRaw = s.stRaw ∧ t.lines = { s.lines with cs := t.lines.cs })

/-! ### Recovery -/

/-- POWER_UP from Faulted (R123, R154, R149) runs all of PD_LIST and then the power-up of R122, whatever three bytes the
panel answers: the events of PD_LIST come first, then those of the power-up, and RESULT is written once, in the last
ENGINE turn, which ends the command. -/
def Obligations.PowerUpFromFaultedRuns : Prop :=
  ∀ (s : State) (v0 v1 v2 : Byte) (more : List Byte), Inv s → s.pc = .dispatch → s.cur.op = 1 →
    s.session = .faulted → s.rxQueue = v0 :: v1 :: v2 :: more →
    ∃ (turns : List Turn) (m t : State), (∀ u ∈ turns, u = .engine ∨ u = .clock) ∧ runTurns turns s = .next m ∧
      m.busy = true ∧ m.result = s.result ∧ engineTurn m = .next t ∧
      t.busy = false ∧ t.pc = .idle ∧ t.mem = s.mem ∧ t.overrun = s.overrun ∧ t.upd = s.upd ∧ t.par = s.par ∧
      powerUpEnds v0 v1 v2 ((listEvents s.par (pdList s.par)).reverse ++ trace s) t
end

