-- ==== Sys2Proof/Laws/State.lean ====
section
/-! SUPPORT. One lemma per field per update: what each named update of State leaves and what it writes. -/

namespace Sys2Proof.Machine

/-! ### State.goto -/

@[simp] theorem goto_par (s : State) (target : Pc) : (s.goto target).par = s.par := rfl
@[simp] theorem goto_session (s : State) (target : Pc) : (s.goto target).session = s.session := rfl
@[simp] theorem goto_busy (s : State) (target : Pc) : (s.goto target).busy = s.busy := rfl
@[simp] theorem goto_overrun (s : State) (target : Pc) : (s.goto target).overrun = s.overrun := rfl
@[simp] theorem goto_selfTest (s : State) (target : Pc) : (s.goto target).selfTest = s.selfTest := rfl
@[simp] theorem goto_result (s : State) (target : Pc) : (s.goto target).result = s.result := rfl
@[simp] theorem goto_fbBase (s : State) (target : Pc) : (s.goto target).fbBase = s.fbBase := rfl
@[simp] theorem goto_fbLen (s : State) (target : Pc) : (s.goto target).fbLen = s.fbLen := rfl
@[simp] theorem goto_busyTimeout (s : State) (target : Pc) : (s.goto target).busyTimeout = s.busyTimeout := rfl
@[simp] theorem goto_lastTemp (s : State) (target : Pc) : (s.goto target).lastTemp = s.lastTemp := rfl
@[simp] theorem goto_stageMs (s : State) (target : Pc) : (s.goto target).stageMs = s.stageMs := rfl
@[simp] theorem goto_stRaw (s : State) (target : Pc) : (s.goto target).stRaw = s.stRaw := rfl
@[simp] theorem goto_pc (s : State) (target : Pc) : (s.goto target).pc = target := rfl
@[simp] theorem goto_cur (s : State) (target : Pc) : (s.goto target).cur = s.cur := rfl
@[simp] theorem goto_upd (s : State) (target : Pc) : (s.goto target).upd = s.upd := rfl
@[simp] theorem goto_lineBuf (s : State) (target : Pc) : (s.goto target).lineBuf = s.lineBuf := rfl
@[simp] theorem goto_rowBuf (s : State) (target : Pc) : (s.goto target).rowBuf = s.rowBuf := rfl
@[simp] theorem goto_rx (s : State) (target : Pc) : (s.goto target).rx = s.rx := rfl
@[simp] theorem goto_tDelay0 (s : State) (target : Pc) : (s.goto target).tDelay0 = s.tDelay0 := rfl
@[simp] theorem goto_nDelay (s : State) (target : Pc) : (s.goto target).nDelay = s.nDelay := rfl
@[simp] theorem goto_lines (s : State) (target : Pc) : (s.goto target).lines = s.lines := rfl
@[simp] theorem goto_now (s : State) (target : Pc) : (s.goto target).now = s.now := rfl
@[simp] theorem goto_mem (s : State) (target : Pc) : (s.goto target).mem = s.mem := rfl
@[simp] theorem goto_race (s : State) (target : Pc) : (s.goto target).race = s.race := rfl
@[simp] theorem goto_events (s : State) (target : Pc) : (s.goto target).events = s.events := rfl
@[simp] theorem goto_fbReads (s : State) (target : Pc) : (s.goto target).fbReads = s.fbReads := rfl
@[simp] theorem goto_host (s : State) (target : Pc) : (s.goto target).host = s.host := rfl
@[simp] theorem goto_hostLog (s : State) (target : Pc) : (s.goto target).hostLog = s.hostLog := rfl
@[simp] theorem goto_rxQueue (s : State) (target : Pc) : (s.goto target).rxQueue = s.rxQueue := rfl
@[simp] theorem goto_busyQueue (s : State) (target : Pc) : (s.goto target).busyQueue = s.busyQueue := rfl
@[simp] theorem goto_turns (s : State) (target : Pc) : (s.goto target).turns = s.turns := rfl
@[simp] theorem goto_draws (s : State) (target : Pc) : (s.goto target).draws = s.draws := rfl

/-! ### accept -/

@[simp] theorem accept_par (w : Word) (s : State) : (accept w s).par = s.par := rfl
@[simp] theorem accept_session (w : Word) (s : State) : (accept w s).session = s.session := rfl
@[simp] theorem accept_busy (w : Word) (s : State) : (accept w s).busy = true := rfl
@[simp] theorem accept_overrun (w : Word) (s : State) : (accept w s).overrun = s.overrun := rfl
@[simp] theorem accept_selfTest (w : Word) (s : State) : (accept w s).selfTest = s.selfTest := rfl
@[simp] theorem accept_result (w : Word) (s : State) : (accept w s).result = s.result := rfl
@[simp] theorem accept_fbBase (w : Word) (s : State) : (accept w s).fbBase = s.fbBase := rfl
@[simp] theorem accept_fbLen (w : Word) (s : State) : (accept w s).fbLen = s.fbLen := rfl
@[simp] theorem accept_busyTimeout (w : Word) (s : State) : (accept w s).busyTimeout = s.busyTimeout := rfl
@[simp] theorem accept_lastTemp (w : Word) (s : State) : (accept w s).lastTemp = s.lastTemp := rfl
@[simp] theorem accept_stageMs (w : Word) (s : State) : (accept w s).stageMs = s.stageMs := rfl
@[simp] theorem accept_stRaw (w : Word) (s : State) : (accept w s).stRaw = s.stRaw := rfl
@[simp] theorem accept_pc (w : Word) (s : State) : (accept w s).pc = .dispatch := rfl
@[simp] theorem accept_cur (w : Word) (s : State) : (accept w s).cur = curOfWord w s.fbBase s.fbLen s.busyTimeout := rfl
@[simp] theorem accept_upd (w : Word) (s : State) : (accept w s).upd = s.upd := rfl
@[simp] theorem accept_lineBuf (w : Word) (s : State) : (accept w s).lineBuf = s.lineBuf := rfl
@[simp] theorem accept_rowBuf (w : Word) (s : State) : (accept w s).rowBuf = s.rowBuf := rfl
@[simp] theorem accept_rx (w : Word) (s : State) : (accept w s).rx = s.rx := rfl
@[simp] theorem accept_tDelay0 (w : Word) (s : State) : (accept w s).tDelay0 = s.tDelay0 := rfl
@[simp] theorem accept_nDelay (w : Word) (s : State) : (accept w s).nDelay = s.nDelay := rfl
@[simp] theorem accept_lines (w : Word) (s : State) : (accept w s).lines = s.lines := rfl
@[simp] theorem accept_now (w : Word) (s : State) : (accept w s).now = s.now := rfl
@[simp] theorem accept_mem (w : Word) (s : State) : (accept w s).mem = s.mem := rfl
@[simp] theorem accept_race (w : Word) (s : State) : (accept w s).race = [] := rfl
@[simp] theorem accept_events (w : Word) (s : State) : (accept w s).events = s.events := rfl
@[simp] theorem accept_fbReads (w : Word) (s : State) : (accept w s).fbReads = s.fbReads := rfl
@[simp] theorem accept_host (w : Word) (s : State) : (accept w s).host = s.host := rfl
@[simp] theorem accept_hostLog (w : Word) (s : State) : (accept w s).hostLog = s.hostLog := rfl
@[simp] theorem accept_rxQueue (w : Word) (s : State) : (accept w s).rxQueue = s.rxQueue := rfl
@[simp] theorem accept_busyQueue (w : Word) (s : State) : (accept w s).busyQueue = s.busyQueue := rfl
@[simp] theorem accept_turns (w : Word) (s : State) : (accept w s).turns = s.turns := rfl
@[simp] theorem accept_draws (w : Word) (s : State) : (accept w s).draws = s.draws := rfl

/-! ### complete -/

@[simp] theorem complete_par (kind : Kind) (c : BitVec 2) (k : BitVec 4) (l : BitVec 8) (s : State) : (complete kind c k l s).par = s.par := rfl
@[simp] theorem complete_session (kind : Kind) (c : BitVec 2) (k : BitVec 4) (l : BitVec 8) (s : State) : (complete kind c k l s).session = s.session := rfl
@[simp] theorem complete_busy (kind : Kind) (c : BitVec 2) (k : BitVec 4) (l : BitVec 8) (s : State) : (complete kind c k l s).busy = false := rfl
@[simp] theorem complete_overrun (kind : Kind) (c : BitVec 2) (k : BitVec 4) (l : BitVec 8) (s : State) : (complete kind c k l s).overrun = s.overrun := rfl
@[simp] theorem complete_selfTest (kind : Kind) (c : BitVec 2) (k : BitVec 4) (l : BitVec 8) (s : State) : (complete kind c k l s).selfTest = s.selfTest := rfl
@[simp] theorem complete_result (kind : Kind) (c : BitVec 2) (k : BitVec 4) (l : BitVec 8) (s : State) : (complete kind c k l s).result = resultWord s.cur.op kind c k l := rfl
@[simp] theorem complete_fbBase (kind : Kind) (c : BitVec 2) (k : BitVec 4) (l : BitVec 8) (s : State) : (complete kind c k l s).fbBase = s.fbBase := rfl
@[simp] theorem complete_fbLen (kind : Kind) (c : BitVec 2) (k : BitVec 4) (l : BitVec 8) (s : State) : (complete kind c k l s).fbLen = s.fbLen := rfl
@[simp] theorem complete_busyTimeout (kind : Kind) (c : BitVec 2) (k : BitVec 4) (l : BitVec 8) (s : State) : (complete kind c k l s).busyTimeout = s.busyTimeout := rfl
@[simp] theorem complete_lastTemp (kind : Kind) (c : BitVec 2) (k : BitVec 4) (l : BitVec 8) (s : State) : (complete kind c k l s).lastTemp = s.lastTemp := rfl
@[simp] theorem complete_stageMs (kind : Kind) (c : BitVec 2) (k : BitVec 4) (l : BitVec 8) (s : State) : (complete kind c k l s).stageMs = s.stageMs := rfl
@[simp] theorem complete_stRaw (kind : Kind) (c : BitVec 2) (k : BitVec 4) (l : BitVec 8) (s : State) : (complete kind c k l s).stRaw = s.stRaw := rfl
@[simp] theorem complete_pc (kind : Kind) (c : BitVec 2) (k : BitVec 4) (l : BitVec 8) (s : State) : (complete kind c k l s).pc = .idle := rfl
@[simp] theorem complete_cur (kind : Kind) (c : BitVec 2) (k : BitVec 4) (l : BitVec 8) (s : State) : (complete kind c k l s).cur = s.cur := rfl
@[simp] theorem complete_upd (kind : Kind) (c : BitVec 2) (k : BitVec 4) (l : BitVec 8) (s : State) : (complete kind c k l s).upd = s.upd := rfl
@[simp] theorem complete_lineBuf (kind : Kind) (c : BitVec 2) (k : BitVec 4) (l : BitVec 8) (s : State) : (complete kind c k l s).lineBuf = s.lineBuf := rfl
@[simp] theorem complete_rowBuf (kind : Kind) (c : BitVec 2) (k : BitVec 4) (l : BitVec 8) (s : State) : (complete kind c k l s).rowBuf = s.rowBuf := rfl
@[simp] theorem complete_rx (kind : Kind) (c : BitVec 2) (k : BitVec 4) (l : BitVec 8) (s : State) : (complete kind c k l s).rx = s.rx := rfl
@[simp] theorem complete_tDelay0 (kind : Kind) (c : BitVec 2) (k : BitVec 4) (l : BitVec 8) (s : State) : (complete kind c k l s).tDelay0 = s.tDelay0 := rfl
@[simp] theorem complete_nDelay (kind : Kind) (c : BitVec 2) (k : BitVec 4) (l : BitVec 8) (s : State) : (complete kind c k l s).nDelay = s.nDelay := rfl
@[simp] theorem complete_lines (kind : Kind) (c : BitVec 2) (k : BitVec 4) (l : BitVec 8) (s : State) : (complete kind c k l s).lines = s.lines := rfl
@[simp] theorem complete_now (kind : Kind) (c : BitVec 2) (k : BitVec 4) (l : BitVec 8) (s : State) : (complete kind c k l s).now = s.now := rfl
@[simp] theorem complete_mem (kind : Kind) (c : BitVec 2) (k : BitVec 4) (l : BitVec 8) (s : State) : (complete kind c k l s).mem = s.mem := rfl
@[simp] theorem complete_race (kind : Kind) (c : BitVec 2) (k : BitVec 4) (l : BitVec 8) (s : State) : (complete kind c k l s).race = [] := rfl
@[simp] theorem complete_events (kind : Kind) (c : BitVec 2) (k : BitVec 4) (l : BitVec 8) (s : State) : (complete kind c k l s).events = s.events := rfl
@[simp] theorem complete_fbReads (kind : Kind) (c : BitVec 2) (k : BitVec 4) (l : BitVec 8) (s : State) : (complete kind c k l s).fbReads = s.fbReads := rfl
@[simp] theorem complete_host (kind : Kind) (c : BitVec 2) (k : BitVec 4) (l : BitVec 8) (s : State) : (complete kind c k l s).host = s.host := rfl
@[simp] theorem complete_hostLog (kind : Kind) (c : BitVec 2) (k : BitVec 4) (l : BitVec 8) (s : State) : (complete kind c k l s).hostLog = s.hostLog := rfl
@[simp] theorem complete_rxQueue (kind : Kind) (c : BitVec 2) (k : BitVec 4) (l : BitVec 8) (s : State) : (complete kind c k l s).rxQueue = s.rxQueue := rfl
@[simp] theorem complete_busyQueue (kind : Kind) (c : BitVec 2) (k : BitVec 4) (l : BitVec 8) (s : State) : (complete kind c k l s).busyQueue = s.busyQueue := rfl
@[simp] theorem complete_turns (kind : Kind) (c : BitVec 2) (k : BitVec 4) (l : BitVec 8) (s : State) : (complete kind c k l s).turns = s.turns := rfl
@[simp] theorem complete_draws (kind : Kind) (c : BitVec 2) (k : BitVec 4) (l : BitVec 8) (s : State) : (complete kind c k l s).draws = s.draws := rfl

/-! ### faultSession -/

@[simp] theorem faultSession_par (kind : Kind) (c : BitVec 2) (k : BitVec 4) (l : BitVec 8) (s : State) : (faultSession kind c k l s).par = s.par := rfl
@[simp] theorem faultSession_session (kind : Kind) (c : BitVec 2) (k : BitVec 4) (l : BitVec 8) (s : State) : (faultSession kind c k l s).session = .faulted := rfl
@[simp] theorem faultSession_busy (kind : Kind) (c : BitVec 2) (k : BitVec 4) (l : BitVec 8) (s : State) : (faultSession kind c k l s).busy = s.busy := rfl
@[simp] theorem faultSession_overrun (kind : Kind) (c : BitVec 2) (k : BitVec 4) (l : BitVec 8) (s : State) : (faultSession kind c k l s).overrun = s.overrun := rfl
@[simp] theorem faultSession_selfTest (kind : Kind) (c : BitVec 2) (k : BitVec 4) (l : BitVec 8) (s : State) : (faultSession kind c k l s).selfTest = s.selfTest := rfl
@[simp] theorem faultSession_result (kind : Kind) (c : BitVec 2) (k : BitVec 4) (l : BitVec 8) (s : State) : (faultSession kind c k l s).result = s.result := rfl
@[simp] theorem faultSession_fbBase (kind : Kind) (c : BitVec 2) (k : BitVec 4) (l : BitVec 8) (s : State) : (faultSession kind c k l s).fbBase = s.fbBase := rfl
@[simp] theorem faultSession_fbLen (kind : Kind) (c : BitVec 2) (k : BitVec 4) (l : BitVec 8) (s : State) : (faultSession kind c k l s).fbLen = s.fbLen := rfl
@[simp] theorem faultSession_busyTimeout (kind : Kind) (c : BitVec 2) (k : BitVec 4) (l : BitVec 8) (s : State) : (faultSession kind c k l s).busyTimeout = s.busyTimeout := rfl
@[simp] theorem faultSession_lastTemp (kind : Kind) (c : BitVec 2) (k : BitVec 4) (l : BitVec 8) (s : State) : (faultSession kind c k l s).lastTemp = s.lastTemp := rfl
@[simp] theorem faultSession_stageMs (kind : Kind) (c : BitVec 2) (k : BitVec 4) (l : BitVec 8) (s : State) : (faultSession kind c k l s).stageMs = s.stageMs := rfl
@[simp] theorem faultSession_stRaw (kind : Kind) (c : BitVec 2) (k : BitVec 4) (l : BitVec 8) (s : State) : (faultSession kind c k l s).stRaw = s.stRaw := rfl
@[simp] theorem faultSession_pc (kind : Kind) (c : BitVec 2) (k : BitVec 4) (l : BitVec 8) (s : State) : (faultSession kind c k l s).pc = .complete kind c k l := rfl
@[simp] theorem faultSession_cur (kind : Kind) (c : BitVec 2) (k : BitVec 4) (l : BitVec 8) (s : State) : (faultSession kind c k l s).cur = s.cur := rfl
@[simp] theorem faultSession_upd (kind : Kind) (c : BitVec 2) (k : BitVec 4) (l : BitVec 8) (s : State) : (faultSession kind c k l s).upd = s.upd := rfl
@[simp] theorem faultSession_lineBuf (kind : Kind) (c : BitVec 2) (k : BitVec 4) (l : BitVec 8) (s : State) : (faultSession kind c k l s).lineBuf = s.lineBuf := rfl
@[simp] theorem faultSession_rowBuf (kind : Kind) (c : BitVec 2) (k : BitVec 4) (l : BitVec 8) (s : State) : (faultSession kind c k l s).rowBuf = s.rowBuf := rfl
@[simp] theorem faultSession_rx (kind : Kind) (c : BitVec 2) (k : BitVec 4) (l : BitVec 8) (s : State) : (faultSession kind c k l s).rx = s.rx := rfl
@[simp] theorem faultSession_tDelay0 (kind : Kind) (c : BitVec 2) (k : BitVec 4) (l : BitVec 8) (s : State) : (faultSession kind c k l s).tDelay0 = s.tDelay0 := rfl
@[simp] theorem faultSession_nDelay (kind : Kind) (c : BitVec 2) (k : BitVec 4) (l : BitVec 8) (s : State) : (faultSession kind c k l s).nDelay = s.nDelay := rfl
@[simp] theorem faultSession_lines (kind : Kind) (c : BitVec 2) (k : BitVec 4) (l : BitVec 8) (s : State) : (faultSession kind c k l s).lines = s.lines := rfl
@[simp] theorem faultSession_now (kind : Kind) (c : BitVec 2) (k : BitVec 4) (l : BitVec 8) (s : State) : (faultSession kind c k l s).now = s.now := rfl
@[simp] theorem faultSession_mem (kind : Kind) (c : BitVec 2) (k : BitVec 4) (l : BitVec 8) (s : State) : (faultSession kind c k l s).mem = s.mem := rfl
@[simp] theorem faultSession_race (kind : Kind) (c : BitVec 2) (k : BitVec 4) (l : BitVec 8) (s : State) : (faultSession kind c k l s).race = s.race := rfl
@[simp] theorem faultSession_events (kind : Kind) (c : BitVec 2) (k : BitVec 4) (l : BitVec 8) (s : State) : (faultSession kind c k l s).events = s.events := rfl
@[simp] theorem faultSession_fbReads (kind : Kind) (c : BitVec 2) (k : BitVec 4) (l : BitVec 8) (s : State) : (faultSession kind c k l s).fbReads = s.fbReads := rfl
@[simp] theorem faultSession_host (kind : Kind) (c : BitVec 2) (k : BitVec 4) (l : BitVec 8) (s : State) : (faultSession kind c k l s).host = s.host := rfl
@[simp] theorem faultSession_hostLog (kind : Kind) (c : BitVec 2) (k : BitVec 4) (l : BitVec 8) (s : State) : (faultSession kind c k l s).hostLog = s.hostLog := rfl
@[simp] theorem faultSession_rxQueue (kind : Kind) (c : BitVec 2) (k : BitVec 4) (l : BitVec 8) (s : State) : (faultSession kind c k l s).rxQueue = s.rxQueue := rfl
@[simp] theorem faultSession_busyQueue (kind : Kind) (c : BitVec 2) (k : BitVec 4) (l : BitVec 8) (s : State) : (faultSession kind c k l s).busyQueue = s.busyQueue := rfl
@[simp] theorem faultSession_turns (kind : Kind) (c : BitVec 2) (k : BitVec 4) (l : BitVec 8) (s : State) : (faultSession kind c k l s).turns = s.turns := rfl
@[simp] theorem faultSession_draws (kind : Kind) (c : BitVec 2) (k : BitVec 4) (l : BitVec 8) (s : State) : (faultSession kind c k l s).draws = s.draws := rfl

/-! ### clearRecord -/

@[simp] theorem clearRecord_par (s : State) : (clearRecord s).par = s.par := rfl
@[simp] theorem clearRecord_session (s : State) : (clearRecord s).session = s.session := rfl
@[simp] theorem clearRecord_busy (s : State) : (clearRecord s).busy = s.busy := rfl
@[simp] theorem clearRecord_overrun (s : State) : (clearRecord s).overrun = s.overrun := rfl
@[simp] theorem clearRecord_selfTest (s : State) : (clearRecord s).selfTest = SelfTest.cleared := rfl
@[simp] theorem clearRecord_result (s : State) : (clearRecord s).result = s.result := rfl
@[simp] theorem clearRecord_fbBase (s : State) : (clearRecord s).fbBase = s.fbBase := rfl
@[simp] theorem clearRecord_fbLen (s : State) : (clearRecord s).fbLen = s.fbLen := rfl
@[simp] theorem clearRecord_busyTimeout (s : State) : (clearRecord s).busyTimeout = s.busyTimeout := rfl
@[simp] theorem clearRecord_lastTemp (s : State) : (clearRecord s).lastTemp = s.lastTemp := rfl
@[simp] theorem clearRecord_stageMs (s : State) : (clearRecord s).stageMs = s.stageMs := rfl
@[simp] theorem clearRecord_stRaw (s : State) : (clearRecord s).stRaw = 0 := rfl
@[simp] theorem clearRecord_pc (s : State) : (clearRecord s).pc = s.pc := rfl
@[simp] theorem clearRecord_cur (s : State) : (clearRecord s).cur = s.cur := rfl
@[simp] theorem clearRecord_upd (s : State) : (clearRecord s).upd = s.upd := rfl
@[simp] theorem clearRecord_lineBuf (s : State) : (clearRecord s).lineBuf = s.lineBuf := rfl
@[simp] theorem clearRecord_rowBuf (s : State) : (clearRecord s).rowBuf = s.rowBuf := rfl
@[simp] theorem clearRecord_rx (s : State) : (clearRecord s).rx = s.rx := rfl
@[simp] theorem clearRecord_tDelay0 (s : State) : (clearRecord s).tDelay0 = s.tDelay0 := rfl
@[simp] theorem clearRecord_nDelay (s : State) : (clearRecord s).nDelay = s.nDelay := rfl
@[simp] theorem clearRecord_lines (s : State) : (clearRecord s).lines = s.lines := rfl
@[simp] theorem clearRecord_now (s : State) : (clearRecord s).now = s.now := rfl
@[simp] theorem clearRecord_mem (s : State) : (clearRecord s).mem = s.mem := rfl
@[simp] theorem clearRecord_race (s : State) : (clearRecord s).race = s.race := rfl
@[simp] theorem clearRecord_events (s : State) : (clearRecord s).events = s.events := rfl
@[simp] theorem clearRecord_fbReads (s : State) : (clearRecord s).fbReads = s.fbReads := rfl
@[simp] theorem clearRecord_host (s : State) : (clearRecord s).host = s.host := rfl
@[simp] theorem clearRecord_hostLog (s : State) : (clearRecord s).hostLog = s.hostLog := rfl
@[simp] theorem clearRecord_rxQueue (s : State) : (clearRecord s).rxQueue = s.rxQueue := rfl
@[simp] theorem clearRecord_busyQueue (s : State) : (clearRecord s).busyQueue = s.busyQueue := rfl
@[simp] theorem clearRecord_turns (s : State) : (clearRecord s).turns = s.turns := rfl
@[simp] theorem clearRecord_draws (s : State) : (clearRecord s).draws = s.draws := rfl

/-! ### emitReadBusy -/

@[simp] theorem emitReadBusy_par (s : State) : (emitReadBusy s).par = s.par := by
  unfold emitReadBusy; split <;> rfl
@[simp] theorem emitReadBusy_session (s : State) : (emitReadBusy s).session = s.session := by
  unfold emitReadBusy; split <;> rfl
@[simp] theorem emitReadBusy_busy (s : State) : (emitReadBusy s).busy = s.busy := by
  unfold emitReadBusy; split <;> rfl
@[simp] theorem emitReadBusy_overrun (s : State) : (emitReadBusy s).overrun = s.overrun := by
  unfold emitReadBusy; split <;> rfl
@[simp] theorem emitReadBusy_selfTest (s : State) : (emitReadBusy s).selfTest = s.selfTest := by
  unfold emitReadBusy; split <;> rfl
@[simp] theorem emitReadBusy_result (s : State) : (emitReadBusy s).result = s.result := by
  unfold emitReadBusy; split <;> rfl
@[simp] theorem emitReadBusy_fbBase (s : State) : (emitReadBusy s).fbBase = s.fbBase := by
  unfold emitReadBusy; split <;> rfl
@[simp] theorem emitReadBusy_fbLen (s : State) : (emitReadBusy s).fbLen = s.fbLen := by
  unfold emitReadBusy; split <;> rfl
@[simp] theorem emitReadBusy_busyTimeout (s : State) : (emitReadBusy s).busyTimeout = s.busyTimeout := by
  unfold emitReadBusy; split <;> rfl
@[simp] theorem emitReadBusy_lastTemp (s : State) : (emitReadBusy s).lastTemp = s.lastTemp := by
  unfold emitReadBusy; split <;> rfl
@[simp] theorem emitReadBusy_stageMs (s : State) : (emitReadBusy s).stageMs = s.stageMs := by
  unfold emitReadBusy; split <;> rfl
@[simp] theorem emitReadBusy_stRaw (s : State) : (emitReadBusy s).stRaw = s.stRaw := by
  unfold emitReadBusy; split <;> rfl
@[simp] theorem emitReadBusy_pc (s : State) : (emitReadBusy s).pc = s.pc := by
  unfold emitReadBusy; split <;> rfl
@[simp] theorem emitReadBusy_cur (s : State) : (emitReadBusy s).cur = s.cur := by
  unfold emitReadBusy; split <;> rfl
@[simp] theorem emitReadBusy_upd (s : State) : (emitReadBusy s).upd = s.upd := by
  unfold emitReadBusy; split <;> rfl
@[simp] theorem emitReadBusy_lineBuf (s : State) : (emitReadBusy s).lineBuf = s.lineBuf := by
  unfold emitReadBusy; split <;> rfl
@[simp] theorem emitReadBusy_rowBuf (s : State) : (emitReadBusy s).rowBuf = s.rowBuf := by
  unfold emitReadBusy; split <;> rfl
@[simp] theorem emitReadBusy_rx (s : State) : (emitReadBusy s).rx = s.rx := by
  unfold emitReadBusy; split <;> rfl
@[simp] theorem emitReadBusy_tDelay0 (s : State) : (emitReadBusy s).tDelay0 = s.tDelay0 := by
  unfold emitReadBusy; split <;> rfl
@[simp] theorem emitReadBusy_nDelay (s : State) : (emitReadBusy s).nDelay = s.nDelay := by
  unfold emitReadBusy; split <;> rfl
@[simp] theorem emitReadBusy_lines (s : State) : (emitReadBusy s).lines = s.lines := by
  unfold emitReadBusy; split <;> rfl
@[simp] theorem emitReadBusy_now (s : State) : (emitReadBusy s).now = s.now := by
  unfold emitReadBusy; split <;> rfl
@[simp] theorem emitReadBusy_mem (s : State) : (emitReadBusy s).mem = s.mem := by
  unfold emitReadBusy; split <;> rfl
@[simp] theorem emitReadBusy_race (s : State) : (emitReadBusy s).race = s.race := by
  unfold emitReadBusy; split <;> rfl
@[simp] theorem emitReadBusy_events (s : State) : (emitReadBusy s).events = .readBusy (busyLevel s) :: s.events := by
  unfold emitReadBusy busyLevel; split <;> rfl
@[simp] theorem emitReadBusy_fbReads (s : State) : (emitReadBusy s).fbReads = s.fbReads := by
  unfold emitReadBusy; split <;> rfl
@[simp] theorem emitReadBusy_host (s : State) : (emitReadBusy s).host = s.host := by
  unfold emitReadBusy; split <;> rfl
@[simp] theorem emitReadBusy_hostLog (s : State) : (emitReadBusy s).hostLog = s.hostLog := by
  unfold emitReadBusy; split <;> rfl
@[simp] theorem emitReadBusy_rxQueue (s : State) : (emitReadBusy s).rxQueue = s.rxQueue := by
  unfold emitReadBusy; split <;> rfl
@[simp] theorem emitReadBusy_turns (s : State) : (emitReadBusy s).turns = s.turns := by
  unfold emitReadBusy; split <;> rfl

/-! ### noteRead -/

@[simp] theorem noteRead_par (a : Word) (s : State) : (noteRead a s).par = s.par := rfl
@[simp] theorem noteRead_session (a : Word) (s : State) : (noteRead a s).session = s.session := rfl
@[simp] theorem noteRead_busy (a : Word) (s : State) : (noteRead a s).busy = s.busy := rfl
@[simp] theorem noteRead_overrun (a : Word) (s : State) : (noteRead a s).overrun = s.overrun := rfl
@[simp] theorem noteRead_selfTest (a : Word) (s : State) : (noteRead a s).selfTest = s.selfTest := rfl
@[simp] theorem noteRead_result (a : Word) (s : State) : (noteRead a s).result = s.result := rfl
@[simp] theorem noteRead_fbBase (a : Word) (s : State) : (noteRead a s).fbBase = s.fbBase := rfl
@[simp] theorem noteRead_fbLen (a : Word) (s : State) : (noteRead a s).fbLen = s.fbLen := rfl
@[simp] theorem noteRead_busyTimeout (a : Word) (s : State) : (noteRead a s).busyTimeout = s.busyTimeout := rfl
@[simp] theorem noteRead_lastTemp (a : Word) (s : State) : (noteRead a s).lastTemp = s.lastTemp := rfl
@[simp] theorem noteRead_stageMs (a : Word) (s : State) : (noteRead a s).stageMs = s.stageMs := rfl
@[simp] theorem noteRead_stRaw (a : Word) (s : State) : (noteRead a s).stRaw = s.stRaw := rfl
@[simp] theorem noteRead_pc (a : Word) (s : State) : (noteRead a s).pc = s.pc := rfl
@[simp] theorem noteRead_cur (a : Word) (s : State) : (noteRead a s).cur = s.cur := rfl
@[simp] theorem noteRead_upd (a : Word) (s : State) : (noteRead a s).upd = s.upd := rfl
@[simp] theorem noteRead_lineBuf (a : Word) (s : State) : (noteRead a s).lineBuf = s.lineBuf := rfl
@[simp] theorem noteRead_rowBuf (a : Word) (s : State) : (noteRead a s).rowBuf = s.rowBuf := rfl
@[simp] theorem noteRead_rx (a : Word) (s : State) : (noteRead a s).rx = s.rx := rfl
@[simp] theorem noteRead_tDelay0 (a : Word) (s : State) : (noteRead a s).tDelay0 = s.tDelay0 := rfl
@[simp] theorem noteRead_nDelay (a : Word) (s : State) : (noteRead a s).nDelay = s.nDelay := rfl
@[simp] theorem noteRead_lines (a : Word) (s : State) : (noteRead a s).lines = s.lines := rfl
@[simp] theorem noteRead_now (a : Word) (s : State) : (noteRead a s).now = s.now := rfl
@[simp] theorem noteRead_mem (a : Word) (s : State) : (noteRead a s).mem = s.mem := rfl
@[simp] theorem noteRead_race (a : Word) (s : State) : (noteRead a s).race = s.race := rfl
@[simp] theorem noteRead_events (a : Word) (s : State) : (noteRead a s).events = s.events := rfl
@[simp] theorem noteRead_fbReads (a : Word) (s : State) : (noteRead a s).fbReads = (a.toNat, memByte s a) :: s.fbReads := rfl
@[simp] theorem noteRead_host (a : Word) (s : State) : (noteRead a s).host = s.host := rfl
@[simp] theorem noteRead_hostLog (a : Word) (s : State) : (noteRead a s).hostLog = s.hostLog := rfl
@[simp] theorem noteRead_rxQueue (a : Word) (s : State) : (noteRead a s).rxQueue = s.rxQueue := rfl
@[simp] theorem noteRead_busyQueue (a : Word) (s : State) : (noteRead a s).busyQueue = s.busyQueue := rfl
@[simp] theorem noteRead_turns (a : Word) (s : State) : (noteRead a s).turns = s.turns := rfl
@[simp] theorem noteRead_draws (a : Word) (s : State) : (noteRead a s).draws = s.draws + 1 := rfl

/-! ### hostMemWrite -/

@[simp] theorem hostMemWrite_par (a : Word) (v : Byte) (s : State) : (hostMemWrite a v s).par = s.par := rfl
@[simp] theorem hostMemWrite_session (a : Word) (v : Byte) (s : State) : (hostMemWrite a v s).session = s.session := rfl
@[simp] theorem hostMemWrite_busy (a : Word) (v : Byte) (s : State) : (hostMemWrite a v s).busy = s.busy := rfl
@[simp] theorem hostMemWrite_overrun (a : Word) (v : Byte) (s : State) : (hostMemWrite a v s).overrun = s.overrun := rfl
@[simp] theorem hostMemWrite_selfTest (a : Word) (v : Byte) (s : State) : (hostMemWrite a v s).selfTest = s.selfTest := rfl
@[simp] theorem hostMemWrite_result (a : Word) (v : Byte) (s : State) : (hostMemWrite a v s).result = s.result := rfl
@[simp] theorem hostMemWrite_fbBase (a : Word) (v : Byte) (s : State) : (hostMemWrite a v s).fbBase = s.fbBase := rfl
@[simp] theorem hostMemWrite_fbLen (a : Word) (v : Byte) (s : State) : (hostMemWrite a v s).fbLen = s.fbLen := rfl
@[simp] theorem hostMemWrite_busyTimeout (a : Word) (v : Byte) (s : State) : (hostMemWrite a v s).busyTimeout = s.busyTimeout := rfl
@[simp] theorem hostMemWrite_lastTemp (a : Word) (v : Byte) (s : State) : (hostMemWrite a v s).lastTemp = s.lastTemp := rfl
@[simp] theorem hostMemWrite_stageMs (a : Word) (v : Byte) (s : State) : (hostMemWrite a v s).stageMs = s.stageMs := rfl
@[simp] theorem hostMemWrite_stRaw (a : Word) (v : Byte) (s : State) : (hostMemWrite a v s).stRaw = s.stRaw := rfl
@[simp] theorem hostMemWrite_pc (a : Word) (v : Byte) (s : State) : (hostMemWrite a v s).pc = s.pc := rfl
@[simp] theorem hostMemWrite_cur (a : Word) (v : Byte) (s : State) : (hostMemWrite a v s).cur = s.cur := rfl
@[simp] theorem hostMemWrite_upd (a : Word) (v : Byte) (s : State) : (hostMemWrite a v s).upd = s.upd := rfl
@[simp] theorem hostMemWrite_lineBuf (a : Word) (v : Byte) (s : State) : (hostMemWrite a v s).lineBuf = s.lineBuf := rfl
@[simp] theorem hostMemWrite_rowBuf (a : Word) (v : Byte) (s : State) : (hostMemWrite a v s).rowBuf = s.rowBuf := rfl
@[simp] theorem hostMemWrite_rx (a : Word) (v : Byte) (s : State) : (hostMemWrite a v s).rx = s.rx := rfl
@[simp] theorem hostMemWrite_tDelay0 (a : Word) (v : Byte) (s : State) : (hostMemWrite a v s).tDelay0 = s.tDelay0 := rfl
@[simp] theorem hostMemWrite_nDelay (a : Word) (v : Byte) (s : State) : (hostMemWrite a v s).nDelay = s.nDelay := rfl
@[simp] theorem hostMemWrite_lines (a : Word) (v : Byte) (s : State) : (hostMemWrite a v s).lines = s.lines := rfl
@[simp] theorem hostMemWrite_now (a : Word) (v : Byte) (s : State) : (hostMemWrite a v s).now = s.now := rfl
@[simp] theorem hostMemWrite_mem (a : Word) (v : Byte) (s : State) : (hostMemWrite a v s).mem = s.mem.write a.toNat v := rfl
@[simp] theorem hostMemWrite_race (a : Word) (v : Byte) (s : State) : (hostMemWrite a v s).race = if s.busy then (a.toNat, s.mem.read a.toNat) :: s.race else s.race := rfl
@[simp] theorem hostMemWrite_events (a : Word) (v : Byte) (s : State) : (hostMemWrite a v s).events = s.events := rfl
@[simp] theorem hostMemWrite_fbReads (a : Word) (v : Byte) (s : State) : (hostMemWrite a v s).fbReads = s.fbReads := rfl
@[simp] theorem hostMemWrite_host (a : Word) (v : Byte) (s : State) : (hostMemWrite a v s).host = s.host := rfl
@[simp] theorem hostMemWrite_hostLog (a : Word) (v : Byte) (s : State) : (hostMemWrite a v s).hostLog = s.hostLog := rfl
@[simp] theorem hostMemWrite_rxQueue (a : Word) (v : Byte) (s : State) : (hostMemWrite a v s).rxQueue = s.rxQueue := rfl
@[simp] theorem hostMemWrite_busyQueue (a : Word) (v : Byte) (s : State) : (hostMemWrite a v s).busyQueue = s.busyQueue := rfl
@[simp] theorem hostMemWrite_turns (a : Word) (v : Byte) (s : State) : (hostMemWrite a v s).turns = s.turns := rfl
@[simp] theorem hostMemWrite_draws (a : Word) (v : Byte) (s : State) : (hostMemWrite a v s).draws = s.draws := rfl

/-! ### clockTick -/

@[simp] theorem clockTick_par (s : State) : (clockTick s).par = s.par := rfl
@[simp] theorem clockTick_session (s : State) : (clockTick s).session = s.session := rfl
@[simp] theorem clockTick_busy (s : State) : (clockTick s).busy = s.busy := rfl
@[simp] theorem clockTick_overrun (s : State) : (clockTick s).overrun = s.overrun := rfl
@[simp] theorem clockTick_selfTest (s : State) : (clockTick s).selfTest = s.selfTest := rfl
@[simp] theorem clockTick_result (s : State) : (clockTick s).result = s.result := rfl
@[simp] theorem clockTick_fbBase (s : State) : (clockTick s).fbBase = s.fbBase := rfl
@[simp] theorem clockTick_fbLen (s : State) : (clockTick s).fbLen = s.fbLen := rfl
@[simp] theorem clockTick_busyTimeout (s : State) : (clockTick s).busyTimeout = s.busyTimeout := rfl
@[simp] theorem clockTick_lastTemp (s : State) : (clockTick s).lastTemp = s.lastTemp := rfl
@[simp] theorem clockTick_stageMs (s : State) : (clockTick s).stageMs = s.stageMs := rfl
@[simp] theorem clockTick_stRaw (s : State) : (clockTick s).stRaw = s.stRaw := rfl
@[simp] theorem clockTick_pc (s : State) : (clockTick s).pc = s.pc := rfl
@[simp] theorem clockTick_cur (s : State) : (clockTick s).cur = s.cur := rfl
@[simp] theorem clockTick_upd (s : State) : (clockTick s).upd = s.upd := rfl
@[simp] theorem clockTick_lineBuf (s : State) : (clockTick s).lineBuf = s.lineBuf := rfl
@[simp] theorem clockTick_rowBuf (s : State) : (clockTick s).rowBuf = s.rowBuf := rfl
@[simp] theorem clockTick_rx (s : State) : (clockTick s).rx = s.rx := rfl
@[simp] theorem clockTick_tDelay0 (s : State) : (clockTick s).tDelay0 = s.tDelay0 := rfl
@[simp] theorem clockTick_nDelay (s : State) : (clockTick s).nDelay = s.nDelay := rfl
@[simp] theorem clockTick_lines (s : State) : (clockTick s).lines = s.lines := rfl
@[simp] theorem clockTick_now (s : State) : (clockTick s).now = s.now + 1 := rfl
@[simp] theorem clockTick_mem (s : State) : (clockTick s).mem = s.mem := rfl
@[simp] theorem clockTick_race (s : State) : (clockTick s).race = s.race := rfl
@[simp] theorem clockTick_events (s : State) : (clockTick s).events = s.events := rfl
@[simp] theorem clockTick_fbReads (s : State) : (clockTick s).fbReads = s.fbReads := rfl
@[simp] theorem clockTick_host (s : State) : (clockTick s).host = s.host := rfl
@[simp] theorem clockTick_hostLog (s : State) : (clockTick s).hostLog = s.hostLog := rfl
@[simp] theorem clockTick_rxQueue (s : State) : (clockTick s).rxQueue = s.rxQueue := rfl
@[simp] theorem clockTick_busyQueue (s : State) : (clockTick s).busyQueue = s.busyQueue := rfl
@[simp] theorem clockTick_turns (s : State) : (clockTick s).turns = s.turns := rfl
@[simp] theorem clockTick_draws (s : State) : (clockTick s).draws = s.draws := rfl

/-! ### emit -/

@[simp] theorem emit_par (a : Act) (s : State) : (emit a s).par = s.par := by
  cases a <;> simp only [emit, emitSetLine, emitWrite, emitDelay, emitRead] <;> try split <;> rfl
@[simp] theorem emit_session (a : Act) (s : State) : (emit a s).session = s.session := by
  cases a <;> simp only [emit, emitSetLine, emitWrite, emitDelay, emitRead] <;> try split <;> rfl
@[simp] theorem emit_busy (a : Act) (s : State) : (emit a s).busy = s.busy := by
  cases a <;> simp only [emit, emitSetLine, emitWrite, emitDelay, emitRead] <;> try split <;> rfl
@[simp] theorem emit_overrun (a : Act) (s : State) : (emit a s).overrun = s.overrun := by
  cases a <;> simp only [emit, emitSetLine, emitWrite, emitDelay, emitRead] <;> try split <;> rfl
@[simp] theorem emit_selfTest (a : Act) (s : State) : (emit a s).selfTest = s.selfTest := by
  cases a <;> simp only [emit, emitSetLine, emitWrite, emitDelay, emitRead] <;> try split <;> rfl
@[simp] theorem emit_result (a : Act) (s : State) : (emit a s).result = s.result := by
  cases a <;> simp only [emit, emitSetLine, emitWrite, emitDelay, emitRead] <;> try split <;> rfl
@[simp] theorem emit_fbBase (a : Act) (s : State) : (emit a s).fbBase = s.fbBase := by
  cases a <;> simp only [emit, emitSetLine, emitWrite, emitDelay, emitRead] <;> try split <;> rfl
@[simp] theorem emit_fbLen (a : Act) (s : State) : (emit a s).fbLen = s.fbLen := by
  cases a <;> simp only [emit, emitSetLine, emitWrite, emitDelay, emitRead] <;> try split <;> rfl
@[simp] theorem emit_busyTimeout (a : Act) (s : State) : (emit a s).busyTimeout = s.busyTimeout := by
  cases a <;> simp only [emit, emitSetLine, emitWrite, emitDelay, emitRead] <;> try split <;> rfl
@[simp] theorem emit_lastTemp (a : Act) (s : State) : (emit a s).lastTemp = s.lastTemp := by
  cases a <;> simp only [emit, emitSetLine, emitWrite, emitDelay, emitRead] <;> try split <;> rfl
@[simp] theorem emit_stageMs (a : Act) (s : State) : (emit a s).stageMs = s.stageMs := by
  cases a <;> simp only [emit, emitSetLine, emitWrite, emitDelay, emitRead] <;> try split <;> rfl
@[simp] theorem emit_stRaw (a : Act) (s : State) : (emit a s).stRaw = s.stRaw := by
  cases a <;> simp only [emit, emitSetLine, emitWrite, emitDelay, emitRead] <;> try split <;> rfl
@[simp] theorem emit_pc (a : Act) (s : State) : (emit a s).pc = s.pc := by
  cases a <;> simp only [emit, emitSetLine, emitWrite, emitDelay, emitRead] <;> try split <;> rfl
@[simp] theorem emit_cur (a : Act) (s : State) : (emit a s).cur = s.cur := by
  cases a <;> simp only [emit, emitSetLine, emitWrite, emitDelay, emitRead] <;> try split <;> rfl
@[simp] theorem emit_upd (a : Act) (s : State) : (emit a s).upd = s.upd := by
  cases a <;> simp only [emit, emitSetLine, emitWrite, emitDelay, emitRead] <;> try split <;> rfl
@[simp] theorem emit_lineBuf (a : Act) (s : State) : (emit a s).lineBuf = s.lineBuf := by
  cases a <;> simp only [emit, emitSetLine, emitWrite, emitDelay, emitRead] <;> try split <;> rfl
@[simp] theorem emit_rowBuf (a : Act) (s : State) : (emit a s).rowBuf = s.rowBuf := by
  cases a <;> simp only [emit, emitSetLine, emitWrite, emitDelay, emitRead] <;> try split <;> rfl
@[simp] theorem emit_now (a : Act) (s : State) : (emit a s).now = s.now := by
  cases a <;> simp only [emit, emitSetLine, emitWrite, emitDelay, emitRead] <;> try split <;> rfl
@[simp] theorem emit_mem (a : Act) (s : State) : (emit a s).mem = s.mem := by
  cases a <;> simp only [emit, emitSetLine, emitWrite, emitDelay, emitRead] <;> try split <;> rfl
@[simp] theorem emit_race (a : Act) (s : State) : (emit a s).race = s.race := by
  cases a <;> simp only [emit, emitSetLine, emitWrite, emitDelay, emitRead] <;> try split <;> rfl
@[simp] theorem emit_fbReads (a : Act) (s : State) : (emit a s).fbReads = s.fbReads := by
  cases a <;> simp only [emit, emitSetLine, emitWrite, emitDelay, emitRead] <;> try split <;> rfl
@[simp] theorem emit_host (a : Act) (s : State) : (emit a s).host = s.host := by
  cases a <;> simp only [emit, emitSetLine, emitWrite, emitDelay, emitRead] <;> try split <;> rfl
@[simp] theorem emit_hostLog (a : Act) (s : State) : (emit a s).hostLog = s.hostLog := by
  cases a <;> simp only [emit, emitSetLine, emitWrite, emitDelay, emitRead] <;> try split <;> rfl
@[simp] theorem emit_busyQueue (a : Act) (s : State) : (emit a s).busyQueue = s.busyQueue := by
  cases a <;> simp only [emit, emitSetLine, emitWrite, emitDelay, emitRead] <;> try split <;> rfl
@[simp] theorem emit_turns (a : Act) (s : State) : (emit a s).turns = s.turns := by
  cases a <;> simp only [emit, emitSetLine, emitWrite, emitDelay, emitRead] <;> try split <;> rfl

end Sys2Proof.Machine
end

