-- ==== Sys2Proof/Laws/Ops.lean ====
section
/-! SUPPORT. One lemma per shared operation that says what it can do, for later proofs to cite. -/

namespace Sys2Proof.Machine

/-- The event of an action, the bound byte aside. -/
theorem emit_events (a : Act) (s : State) : ∃ e, (emit a s).events = e :: s.events := by
  cases a <;> simp only [emit, emitSetLine, emitWrite, emitDelay, emitRead]
  · exact ⟨_, rfl⟩
  · exact ⟨_, rfl⟩
  · split <;> exact ⟨_, rfl⟩
  · exact ⟨_, rfl⟩

/-- An action moves a line only if it is a SetLine. -/
theorem emit_lines (a : Act) (s : State) :
    (emit a s).lines = match a with
      | .setLine name level => setLevel s.lines name level
      | .write _ => s.lines
      | .read _ => s.lines
      | .delay _ => s.lines := by
  cases a <;> simp only [emit, emitSetLine, emitWrite, emitDelay, emitRead]
  split <;> rfl

theorem runFrame_emit {acts : List Act} {ev : Nat} {a : Act} (h : acts[ev]? = some a) (at_ : Nat → Pc)
    (done : State → State) (s : State) : runFrame acts ev at_ done s = (emit a s).goto (at_ (ev + 1)) := by
  simp [runFrame, h]

theorem runFrame_done {acts : List Act} {ev : Nat} (h : acts[ev]? = none) (at_ : Nat → Pc)
    (done : State → State) (s : State) : runFrame acts ev at_ done s = done s := by
  simp [runFrame, h]

/-- A frame step is an event of the frame, or what follows the frame. -/
theorem runFrame_cases (acts : List Act) (ev : Nat) (at_ : Nat → Pc) (done : State → State) (s : State) :
    (∃ a, acts[ev]? = some a ∧ runFrame acts ev at_ done s = (emit a s).goto (at_ (ev + 1))) ∨
      (acts.length ≤ ev ∧ runFrame acts ev at_ done s = done s) := by
  cases h : acts[ev]? with
  | some a => exact .inl ⟨a, rfl, runFrame_emit h at_ done s⟩
  | none => exact .inr ⟨List.getElem?_eq_none_iff.1 h, runFrame_done h at_ done s⟩

/-- A list step is an event of its current step, the end of that step, or what follows the list. -/
theorem runList_cases (l : List SeqStep) (at_ : Nat → Nat → Pc) (done : State → State) (i ev : Nat) (s : State) :
    (∃ st a, l[i - 1]? = some st ∧ (st.acts s.par)[ev]? = some a ∧
        runList l at_ done i ev s = (emit a s).goto (at_ i (ev + 1))) ∨
      (∃ st, l[i - 1]? = some st ∧ (st.acts s.par).length ≤ ev ∧
        runList l at_ done i ev s = endStep st (at_ (i + 1) 0) s) ∨
      (l.length ≤ i - 1 ∧ runList l at_ done i ev s = done s) := by
  unfold runList
  cases h : l[i - 1]? with
  | none => exact .inr (.inr ⟨List.getElem?_eq_none_iff.1 h, rfl⟩)
  | some st =>
    rcases runFrame_cases (st.acts s.par) ev (at_ i) (endStep st (at_ (i + 1) 0)) s with ⟨a, ha, e⟩ | ⟨hl, e⟩
    · exact .inl ⟨st, a, rfl, ha, e⟩
    · exact .inr (.inl ⟨st, rfl, hl, e⟩)

/-- What a CHECK does with its byte: on a pass the next position, on a failure the fault. -/
theorem evalCheck_cases (c : Check) (next : Pc) (s : State) :
    (checkPasses c s.rx = true ∧ evalCheck c next s =
        { s with selfTest := s.selfTest.evaluate c true, stRaw := rawWith s.stRaw c s.rx, pc := next }) ∨
      (checkPasses c s.rx = false ∧ evalCheck c next s =
        { s with
          selfTest := { s.selfTest.evaluate c false with valid := true }
          stRaw := rawWith s.stRaw c s.rx
          session := .faulted
          pc := .complete .selftestFailure (checkCode c) 0 0 }) := by
  unfold evalCheck
  cases h : checkPasses c s.rx
  · exact .inr ⟨rfl, rfl⟩
  · exact .inl ⟨rfl, rfl⟩

/-- What ends a sequencer step: the next position, a hold that changes nothing, or a check. -/
theorem endStep_cases (st : SeqStep) (next : Pc) (s : State) :
    endStep st next s = s.goto next ∨
      (∃ n, st = .wait n ∧ held s = true ∧ endStep st next s = s) ∨
      (∃ c, st = .check c ∧ endStep st next s = evalCheck c next s) := by
  cases st with
  | line name level => exact .inl rfl
  | regw idx val => exact .inl rfl
  | check c => exact .inr (.inr ⟨c, rfl, rfl⟩)
  | wait n =>
    cases h : held s
    · exact .inl (by simp [endStep, h])
    · exact .inr (.inl ⟨n, rfl, rfl, by simp [endStep, h]⟩)

/-- What one step of a busy wait can do. -/
theorem busyWait_cases (stage : BitVec 4) (line : BitVec 8) (at_ : WaitPhase → Pc) (ret : State → State)
    (w : WaitPhase) (s : State) :
    (w = .start ∧ busyWait stage line at_ ret w s = { s with upd := { s.upd with tWait0 := s.now }, pc := at_ .sample }) ∨
      (w = .sample ∧ busyLevel s = false ∧ busyWait stage line at_ ret w s = ret (emitReadBusy s)) ∨
      (w = .sample ∧ busyLevel s = true ∧ s.upd.timeoutL.toNat < (elapsed s.now s.upd.tWait0).toNat ∧
        busyWait stage line at_ ret w s = faultSession .commTimeout 0 stage line (emitReadBusy s)) ∨
      (w = .sample ∧ busyLevel s = true ∧ ¬ s.upd.timeoutL.toNat < (elapsed s.now s.upd.tWait0).toNat ∧
        busyWait stage line at_ ret w s = (emitReadBusy s).goto (at_ .delay)) ∨
      (w = .delay ∧ busyWait stage line at_ ret w s = (emit (.delay s.par.busyPoll) s).goto (at_ .hold)) ∨
      (w = .hold ∧ held s = true ∧ busyWait stage line at_ ret w s = s) ∨
      (w = .hold ∧ held s = false ∧ busyWait stage line at_ ret w s = s.goto (at_ .sample)) := by
  cases w with
  | start => exact .inl ⟨rfl, rfl⟩
  | sample =>
    cases h : busyLevel s
    · exact .inr (.inl ⟨rfl, rfl, by simp [busyWait, h]⟩)
    · by_cases ht : s.upd.timeoutL.toNat < (elapsed s.now s.upd.tWait0).toNat
      · exact .inr (.inr (.inl ⟨rfl, rfl, ht, by simp [busyWait, h, ht]⟩))
      · exact .inr (.inr (.inr (.inl ⟨rfl, rfl, ht, by simp [busyWait, h, ht]⟩)))
  | delay => exact .inr (.inr (.inr (.inr (.inl ⟨rfl, rfl⟩))))
  | hold =>
    cases h : held s
    · exact .inr (.inr (.inr (.inr (.inr (.inr ⟨rfl, rfl, by simp [busyWait, h]⟩)))))
    · exact .inr (.inr (.inr (.inr (.inr (.inl ⟨rfl, rfl, by simp [busyWait, h]⟩)))))

/-- A command is issued while none runs, and takes an ENGINE step while it runs. -/
theorem command_idle {s : State} (h : s.busy = false) (i : Instr) (engine : State → Result) :
    command i engine s = .next (accept (encode i) s) := by
  simp [command, h]

theorem command_running {s : State} (h : s.busy = true) (i : Instr) (engine : State → Result) :
    command i engine s = engine s := by
  simp [command, h]

/-- A step that answers a next state is one turn, under well-formed parameters. -/
theorem step_next {s t : State} (h : nextTurn s = .next t) :
    s.par.wf = true ∧ takeTurn (currentTurn s) (dropTurn s) = .next t := by
  unfold nextTurn at h
  split at h
  · exact ⟨‹_›, h⟩
  · cases h

/-- Taking the turn off the schedule touches the schedule and the free-value counter only. -/
theorem dropTurn_cases (s : State) :
    (∃ rest, dropTurn s = { s with turns := rest }) ∨ dropTurn s = { s with draws := s.draws + 1 } := by
  unfold dropTurn
  split
  · exact .inl ⟨_, rfl⟩
  · exact .inr rfl

/-- What a host write can do when it answers a next state: issue a command, flag an overrun, write one register, or
nothing. -/
theorem hostWrite_cases {off : Nat} {v : Word} {s t : State} (h : hostWrite off v s = .next t) :
    (off = 0 ∧ s.busy = false ∧ exec (decodeWord v) s = .next t) ∨ t = { s with overrun := true } ∨
      t = { s with overrun := s.overrun && !v.getLsbD 4 } ∨ t = { s with fbBase := v } ∨
      t = { s with fbLen := v } ∨ t = { s with busyTimeout := v } ∨ t = s := by
  unfold hostWrite at h
  cases hr : regAt off with
  | none =>
    rw [hr] at h
    cases h
    simp
  | some r =>
    rw [hr] at h
    cases r with
    | cmd =>
      have hoff : off = 0 := by
        unfold regAt at hr
        repeat' split at hr
        all_goals first | assumption | cases hr
      simp only [writeReg, cmdWrite] at h
      split at h
      · cases h
        simp
      · rename_i hb
        exact .inl ⟨hoff, by simpa using hb, h⟩
    | status => cases h; simp
    | fbBase => cases h; simp
    | fbLen => cases h; simp
    | busyTimeout => cases h; simp
    | result => cases h; simp
    | lastTemp => cases h; simp
    | stageMs => cases h; simp
    | stRaw => cases h; simp

/-- What a HOST turn can do when it answers a next state. -/
theorem hostTurn_cases {s t : State} (h : hostTurn s = .next t) :
    t = s ∨ (∃ off f u, (u = s ∨ ∃ rest, u = { s with host := rest }) ∧ t = noteHostRead off f u) ∨
      (∃ off v rest, hostWrite off v { s with host := rest } = .next t) ∨
      (∃ a v rest, t = hostMemWrite a v { s with host := rest }) := by
  unfold hostTurn at h
  cases hh : s.host with
  | nil =>
    rw [hh] at h
    cases h
    exact .inl rfl
  | cons op rest =>
    rw [hh] at h
    cases op with
    | rd off bytes =>
      simp only at h
      split at h
      · cases h
        exact .inr (.inl ⟨off, _, _, .inr ⟨rest, rfl⟩, rfl⟩)
      · cases h
    | wr off bytes v =>
      simp only at h
      split at h
      · exact .inr (.inr (.inl ⟨off, v, rest, h⟩))
      · cases h
    | waitIdle =>
      simp only at h
      cases h
      cases hb : s.busy
      · exact .inr (.inl ⟨Reg.status.offset, fun _ => true, _, .inr ⟨rest, rfl⟩, by simp⟩)
      · exact .inr (.inl ⟨Reg.status.offset, fun _ => true, _, .inl rfl, by simp⟩)
    | expect off mask v =>
      simp only at h
      split at h
      · cases h
        exact .inr (.inl ⟨off, _, _, .inr ⟨rest, rfl⟩, rfl⟩)
      · cases h
    | memWr a v =>
      simp only at h
      cases h
      exact .inr (.inr (.inr ⟨a, v, rest, rfl⟩))

end Sys2Proof.Machine
end

