-- ==== Sys2Proof/Laws/Exec.lean ====
section
/-! SUPPORT. exec of each command while it runs, the OP of the command in CUR, the frames of one emitted event and of
one busy sample, the step of a busy wait, the register of a host statement, and CS after a list of actions. -/

namespace Sys2Proof.Machine

section Running

variable {s : State} (h : s.busy = true)
include h

theorem exec_powerUp_running (x : BitVec 28) : exec (.powerUp x) s = powerUpStep s := command_running h ..

theorem exec_powerDown_running (x : BitVec 28) : exec (.powerDown x) s = powerDownStep s := command_running h ..

theorem exec_updateFull_running (t : BitVec 16) (r : BitVec 11) : exec (.updateFull t r) s = updateStep s :=
  command_running h ..

theorem exec_updatePartial_running (t : BitVec 16) (r : BitVec 11) : exec (.updatePartial t r) s = updateStep s :=
  command_running h ..

theorem exec_reserved4to7_running (op : BitVec 4) (x : BitVec 28) : exec (.reserved4to7 op x) s = reservedStep s :=
  command_running h ..

theorem exec_reserved8toF_running (op : BitVec 4) (x : BitVec 28) : exec (.reserved8toF op x) s = reservedStep s :=
  command_running h ..

end Running

/-- The OP of the word CUR stands for is CUR.OP. -/
theorem opField_curWord (c : Cur) : opField c.word = c.op := by
  unfold opField Cur.word
  exact BitVec.extractLsb'_append_eq_right ..

/-- The command in CUR is of the row of CUR.OP. -/
theorem cur_instr_op (c : Cur) :
    (∀ x, c.instr = .powerUp x → c.op = 1) ∧ (∀ x, c.instr = .powerDown x → c.op = 2) ∧
      (∀ t r, c.instr = .updateFull t r → c.op = 3) ∧ (∀ t r, c.instr = .updatePartial t r → c.op = 3) := by
  unfold Cur.instr decodeWord
  rw [opField_curWord]
  refine ⟨?_, ?_, ?_, ?_⟩ <;> (repeat' split) <;> simp_all

/-- All that one emitted event changes (R60): the history by the event, pc, the line of a SetLine, the delay latch, and
what a read exchange binds. -/
theorem emit_goto_frame (a : Act) (s : State) (p : Pc) :
    trace ((emit a s).goto p) = a.event :: trace s ∧
      (emit a s).goto p = { s with
        pc := p
        events := (emit a s).events
        lines := (emit a s).lines
        rx := (emit a s).rx
        rxQueue := (emit a s).rxQueue
        draws := (emit a s).draws
        tDelay0 := (emit a s).tDelay0
        nDelay := (emit a s).nDelay } ∧
      (∀ name level, a = .setLine name level → (emit a s).lines = setLevel s.lines name level) ∧
      ((∀ name level, a ≠ .setLine name level) → (emit a s).lines = s.lines) := by
  cases a <;> simp [emit, emitSetLine, emitWrite, emitRead, emitDelay, State.goto, trace, Act.event, Event.unbound]
  split <;> simp [Event.unbound]

/-- All that one busy sample changes (R63): the history by its event, and where the level came from. -/
theorem emitReadBusy_frame (s : State) :
    emitReadBusy s = { s with
      events := .readBusy (busyLevel s) :: s.events
      busyQueue := (emitReadBusy s).busyQueue
      draws := (emitReadBusy s).draws } := by
  unfold emitReadBusy busyLevel
  split <;> rfl

/-- The ENGINE step of an update at either busy wait (R133, R136). -/
theorem updateStep_wait {s : State} {settle : Bool} {w : WaitPhase} (h : s.pc = waitAt settle w) :
    updateStep s = .next (
      if settle then busyWait 0 0 .settleWait (fun t => t.goto (.complete .ok 0 0 0)) w s
      else busyWait s.upd.k s.upd.r .wait nextRow w s) := by
  cases settle <;> simp [waitAt] at h <;> simp [updateStep, h]

@[simp] theorem RegRef.resolve_name (r : Reg) : (RegRef.name r).resolve = some r.offset := rfl

/-- What a register given by its offset stands for (R86, R21). -/
theorem RegRef.resolve_offset (off : Nat) :
    (RegRef.offset off).resolve = if off % 4 = 0 ∧ off < 64 then some off else none := by
  simp [RegRef.resolve, accessOk]

/-- CS after two lists of actions. -/
theorem csAfter_append (l m : List Act) (c : Bool) : csAfter (l ++ m) c = csAfter m (csAfter l c) := by
  induction l generalizing c with
  | nil => rfl
  | cons a l ih => cases a <;> simp [csAfter, ih]

/-- CS does not move within line bytes. -/
theorem csAfter_writes (l : List Byte) (c : Bool) : csAfter (l.map Act.write) c = c := by
  induction l with
  | nil => rfl
  | cons a l ih => simpa [csAfter] using ih

end Sys2Proof.Machine
end

