-- ==== Sys2Proof/Laws/Fields.lean ====
section
/-! SUPPORT. The fields of command words and of the packed registers, read back from the concatenations that make
them. -/

namespace Sys2Proof

@[simp] theorem opField_append (ignored : BitVec 28) (op : BitVec 4) : opField (ignored ++ op : BitVec 32) = op := by
  apply BitVec.eq_of_getLsbD_eq
  intro i hi
  have h := BitVec.getLsbD_append (x := ignored) (y := op) (i := i)
  simp only [hi, ite_true] at h
  simpa [opField, hi] using h

@[simp] theorem ignoredField_append (ignored : BitVec 28) (op : BitVec 4) :
    ignoredField (ignored ++ op : BitVec 32) = ignored := by
  apply BitVec.eq_of_getLsbD_eq
  intro i hi
  have h := BitVec.getLsbD_append (x := ignored) (y := op) (i := 4 + i)
  have h4 : ¬ 4 + i < 4 := by omega
  simp only [h4, ite_false] at h
  simpa [ignoredField, hi] using h

/-- A word is its ignored bits and its OP. -/
theorem word_split (w : Word) : (ignoredField w ++ opField w : BitVec 32) = w := by
  apply BitVec.eq_of_getLsbD_eq
  intro i hi
  have h := BitVec.getLsbD_append (x := ignoredField w) (y := opField w) (i := i)
  refine h.trans ?_
  split
  · rename_i h
    simp [opField, h]
  · rename_i h
    have h1 : i - 4 < 28 := by omega
    have h2 : 4 + (i - 4) = i := by omega
    simp [ignoredField, h1, h2]

end Sys2Proof

namespace Sys2Proof.Machine

open BitVec

section ResultFields

variable (op : BitVec 4) (kind : Kind) (c : BitVec 2) (k : BitVec 4) (l : BitVec 8)

@[simp] theorem resultKind_word : resultKind (resultWord op kind c k l) = kind.code := by
  unfold resultKind resultWord
  exact extractLsb'_append_eq_right ..

@[simp] theorem resultCheck_word : resultCheck (resultWord op kind c k l) = c := by
  unfold resultCheck resultWord
  iterate 2 rw [extractLsb'_append_eq_of_le (by decide)]
  exact extractLsb'_append_eq_right ..

@[simp] theorem resultStage_word : resultStage (resultWord op kind c k l) = k := by
  unfold resultStage resultWord
  iterate 4 rw [extractLsb'_append_eq_of_le (by decide)]
  exact extractLsb'_append_eq_right ..

@[simp] theorem resultLine_word : resultLine (resultWord op kind c k l) = l := by
  unfold resultLine resultWord
  iterate 6 rw [extractLsb'_append_eq_of_le (by decide)]
  exact extractLsb'_append_eq_right ..

@[simp] theorem resultOp_word : resultOp (resultWord op kind c k l) = op := by
  unfold resultOp resultWord
  iterate 7 rw [extractLsb'_append_eq_of_le (by decide)]
  exact extractLsb'_append_eq_right ..

@[simp] theorem resultValid_word : resultValid (resultWord op kind c k l) = 1 := by
  unfold resultValid resultWord
  iterate 9 rw [extractLsb'_append_eq_of_le (by decide)]
  rfl

/-- The reserved bits of a RESULT word are 0 (R28). -/
theorem resultWord_reserved : (resultWord op kind c k l).extractLsb' 3 1 = 0 ∧
    (resultWord op kind c k l).extractLsb' 6 2 = 0 ∧ (resultWord op kind c k l).extractLsb' 12 4 = 0 ∧
    (resultWord op kind c k l).extractLsb' 28 3 = 0 := by
  unfold resultWord
  refine ⟨?_, ?_, ?_, ?_⟩
  · rw [extractLsb'_append_eq_of_le (by decide)]
    exact extractLsb'_append_eq_right ..
  · iterate 3 rw [extractLsb'_append_eq_of_le (by decide)]
    exact extractLsb'_append_eq_right ..
  · iterate 5 rw [extractLsb'_append_eq_of_le (by decide)]
    exact extractLsb'_append_eq_right ..
  · iterate 8 rw [extractLsb'_append_eq_of_le (by decide)]
    exact extractLsb'_append_eq_right ..

end ResultFields

/-- A KIND code is at most 5 (R29). -/
theorem kind_code_le (kind : Kind) : kind.code.toNat ≤ 5 := by
  cases kind <;> decide

end Sys2Proof.Machine
end

