-- ==== Sys2Proof/Laws/PerInstr.lean ====
section
/-! SUPPORT. What holds of every instruction as syntax, one lemma per constructor: the OP field of an instruction's word
is the OP of its row (R77, R81). -/

namespace Sys2Proof.Laws

/-- The OP of an instruction (R81); for the reserved rows it is an operand. -/
def opOf : Instr → BitVec 4
  | .nop _ => 0
  | .powerUp _ => 1
  | .powerDown _ => 2
  | .updateFull _ _ => 3
  | .updatePartial _ _ => 3
  | .reserved4to7 op _ => op
  | .reserved8toF op _ => op

namespace OpOfWord

/-- The word of the instruction has the instruction's OP in bits [3:0]. -/
def Statement (i : Instr) : Prop := opField (encode i) = opOf i

theorem nop (ignored : BitVec 28) : Statement (.nop ignored) := opField_append ..

theorem powerUp (ignored : BitVec 28) : Statement (.powerUp ignored) := opField_append ..

theorem powerDown (ignored : BitVec 28) : Statement (.powerDown ignored) := opField_append ..

theorem updateFull (temp : BitVec 16) (reserved : BitVec 11) : Statement (.updateFull temp reserved) :=
  BitVec.extractLsb'_append_eq_right ..

theorem updatePartial (temp : BitVec 16) (reserved : BitVec 11) : Statement (.updatePartial temp reserved) :=
  BitVec.extractLsb'_append_eq_right ..

theorem reserved4to7 (op : BitVec 4) (ignored : BitVec 28) : Statement (.reserved4to7 op ignored) := opField_append ..

theorem reserved8toF (op : BitVec 4) (ignored : BitVec 28) : Statement (.reserved8toF op ignored) := opField_append ..

end OpOfWord

end Sys2Proof.Laws
end

