-- ==== Sys2Proof/Laws/Record.lean ====
section
/-! SUPPORT. The byte lanes of ST_RAW: writing one lane leaves the others. -/

namespace Sys2Proof.Machine

open BitVec

/-- A slice of a slice. -/
theorem extract_extract {w : Nat} (x : BitVec w) (a n b m : Nat) (h : b + m ≤ n) :
    (x.extractLsb' a n).extractLsb' b m = x.extractLsb' (a + b) m := by
  apply BitVec.eq_of_getLsbD_eq
  intro i hi
  have h1 : b + i < n := by omega
  simp [hi, h1, Nat.add_assoc]

/-- ST_RAW[c] <- v writes lane c and no other (R35, R119). -/
theorem rawLane_rawWith (raw : Word) (c d : Check) (v : Byte) :
    rawLane (rawWith raw c v) d = if d = c then v else rawLane raw d := by
  cases c <;> cases d <;> simp only [rawLane, rawWith, reduceCtorEq, if_true, if_false]
  · exact extractLsb'_append_eq_right ..
  · rw [extractLsb'_append_eq_of_le (by decide), extract_extract _ _ _ _ _ (by decide)]
  · rw [extractLsb'_append_eq_of_le (by decide), extract_extract _ _ _ _ _ (by decide)]
  · exact extractLsb'_append_eq_right ..
  · rw [extractLsb'_append_eq_of_le (by decide)]; exact extractLsb'_append_eq_right ..
  · iterate 2 rw [extractLsb'_append_eq_of_le (by decide)]
    rw [extract_extract _ _ _ _ _ (by decide)]
  · refine (extractLsb'_append_eq_of_add_le (by decide)).trans ?_
    rw [extract_extract _ _ _ _ _ (by decide)]
  · refine (extractLsb'_append_eq_of_add_le (by decide)).trans ?_
    rw [extract_extract _ _ _ _ _ (by decide)]
  · rw [extractLsb'_append_eq_of_le (by decide)]; exact extractLsb'_append_eq_right ..

/-- Bits [31:24] of ST_RAW are never written (R35). -/
theorem rawTop_rawWith (raw : Word) (c : Check) (v : Byte) :
    (rawWith raw c v).extractLsb' 24 8 = raw.extractLsb' 24 8 := by
  cases c <;> simp only [rawWith]
  · rw [extractLsb'_append_eq_of_le (by decide), extract_extract _ _ _ _ _ (by decide)]
  · iterate 2 rw [extractLsb'_append_eq_of_le (by decide)]
    rw [extract_extract _ _ _ _ _ (by decide)]
  · iterate 2 rw [extractLsb'_append_eq_of_le (by decide)]
    rw [extract_extract _ _ _ _ _ (by decide)]

end Sys2Proof.Machine
end

