-- ==== Sys2Proof/Tests/Slice0.lean ====
section
/-! SUPPORT. The model's own tests, with values from spec/95_test_vectors.md, and the witnesses: for each statement with
hypotheses, concrete states and operands that meet them. -/

namespace Sys2Proof.Machine.Tests

open Sys2Proof.Machine

/-! ### Helpers: small states -/

/-- Whether an answer is a next state with property p. -/
def nextWith (r : Result) (p : State → Bool) : Bool :=
  match r with
  | .next t => p t
  | .fault _ => false
  | .refused _ => false

/-- An idle panel in session Ready, FB_BASE and FB_LEN set (V-REG-10, SET_FB). -/
def ready : State :=
  { State.reset with
    session := .ready
    selfTest := SelfTest.good
    stRaw := 0x00008002
    lines := Lines.powered
    fbBase := 0xFFFFFFF0
    fbLen := 5808 }

/-- An idle panel in session Faulted after a driver-ID failure (V-PWR-2). -/
def faulted : State :=
  { State.reset with
    session := .faulted
    selfTest := { SelfTest.cleared with evalDriverId := true, valid := true }
    stRaw := 0x00000003
    lines := Lines.powered
    result := 0x81000001 }

/-- s with the command of word w in flight, just accepted. -/
def issued (w : Word) (s : State) : State := accept w s

/-- s with the command of word w in flight at position p. -/
def running (w : Word) (p : Pc) (s : State) : State := { accept w s with pc := p }

/-- UPDATE_FULL 20 in flight at position p, latched for stage 1, row 10, busy bound 1000 from NOW = 0. -/
def updating (p : Pc) : State :=
  { running 0x00140003 p ready with
    upd := ⟨.full, 20, 5, 1260, 0xFFFFFFF0, 1000, 1, 10, 0, 0⟩ }

/-- POWER_UP in flight at step i, event ev, as a run from Off stands there before any check. -/
def poweringUp (i ev : Nat) : State := { running 0x00000001 (.pu i ev) State.reset with session := .poweringUp }

/-- POWER_DOWN in flight at step i, event ev. -/
def poweringDown (i ev : Nat) : State := { running 0x00000002 (.pd i ev) ready with session := .poweringDown }

/-! ### WellFormed refuses -/

/-- Smoke: an ill-formed term for each check of WellFormed, and REFCFG and the range's ends pass. -/
theorem test_wf_refuses_ill_formed :
    Instr.wf (.reserved4to7 3 0) = false ∧ Instr.wf (.reserved4to7 8 0) = false ∧ Instr.wf (.reserved8toF 7 0) = false ∧
    Params.wf { refcfg with driveWhite := 0b11 } = false ∧ Params.wf { refcfg with driveNoChange := 0b11 } = false ∧
    Params.wf { refcfg with driveNoChange := 0b10 } = false ∧
    Params.wf { refcfg with factor10 := #v[170, 120, 80, 40, 30, 20, 10, 10] } = false ∧
    Params.wf { refcfg with stagesFull := [] } = false ∧ Params.wf { refcfg with stagesPartial := [] } = false ∧
    Params.wf { refcfg with stagesFull := List.replicate 16 .comp } = false ∧
    Params.wf { refcfg with stagesPartial := List.replicate 16 .comp } = false ∧
    Params.wf { refcfg with stagesFull := List.replicate 15 .comp } = true ∧ refcfg.wf = true := by
  decide

/-! ### Decode: words written out from R76 and R81 (V-CMD-1 to V-CMD-14) -/

/-- TEMP [31:16], reserved [15:5], MODE [4], OP [3:0], written bit by bit. -/
theorem test_decode_words_by_bits :
    decodeWord 0b0000000000000000_00000000000_0_0000 = .nop 0 ∧
    decodeWord 0b1010101111001101_00000000000_1_0001 = .powerUp 0xABCD001 ∧
    decodeWord 0b0000000000000000_00000000000_0_0010 = .powerDown 0 ∧
    decodeWord 0b0000000000010100_00000000000_0_0011 = .updateFull 20 0 ∧
    decodeWord 0b1111111111110110_00000000000_1_0011 = .updatePartial 0xFFF6 0 ∧
    decodeWord 0b0000000000000000_11111111111_1_0011 = .updatePartial 0 0x7FF ∧
    decodeWord 0b0000000000000000_00000000000_0_0100 = .reserved4to7 4 0 ∧
    decodeWord 0b0000000000010100_00000000000_0_1000 = .reserved8toF 8 0x0014000 := by
  decide

/-- Encoding gives the same words back, and the temperature operand is signed (V-CMD-7, V-CMD-8). -/
theorem test_encode_words :
    encode (.updatePartial (-10) 0) = 0xFFF60013 ∧ encode (.updateFull (-32768) 0) = 0x80000003 ∧
    encode (.updateFull 0 0x7FF) = 0x0000FFE3 ∧ encode (.reserved8toF 15 0) = 0x0000000F ∧ degrees 0xFFF6 = -10 := by
  decide

/-- The table's row words through the byte lanes: `decodeTableWord`. -/
theorem test_decode_table_words :
    decodeTableWord 32 0x00000000 = some (.nop 0) ∧ decodeTableWord 32 0x00000001 = some (.powerUp 0) ∧
    decodeTableWord 32 0x00000002 = some (.powerDown 0) ∧ decodeTableWord 32 0x00140003 = some (.updateFull 20 0) ∧
    decodeTableWord 32 0x00140013 = some (.updatePartial 20 0) ∧
    decodeTableWord 32 0x00000007 = some (.reserved4to7 7 0) ∧
    decodeTableWord 32 0x0000000F = some (.reserved8toF 15 0) := by
  decide

/-! ### A word placed at reset is what the next step runs -/

/-- NOP sets nothing; every other row sets BUSY, and CUR has the word's fields (R87). -/
theorem test_step_runs_placed_word :
    nextWith (step (State.reset.withFetchWord 32 0x00000000)) (fun t => t == State.reset) = true ∧
    nextWith (step (State.reset.withFetchWord 32 0x00000001)) (fun t => t.busy && t.cur.op == 1) = true ∧
    nextWith (step (State.reset.withFetchWord 32 0x00000002)) (fun t => t.busy && t.cur.op == 2) = true ∧
    nextWith (step (State.reset.withFetchWord 32 0x00140003))
      (fun t => t.busy && t.cur.op == 3 && t.cur.mode == 0 && t.cur.temp == 20 && t.cur.tmo == 1000) = true ∧
    nextWith (step (State.reset.withFetchWord 32 0xFFF60013)) (fun t => t.cur.mode == 1 && t.cur.temp == 0xFFF6) = true ∧
    nextWith (step (State.reset.withFetchWord 32 0x00000004)) (fun t => t.busy && t.cur.op == 4) = true ∧
    nextWith (step (State.reset.withFetchWord 32 0x0000000F)) (fun t => t.busy && t.cur.op == 15) = true := by
  decide

/-! ### Registers (V-REG), results (V-RES) -/

/-- V-REG-1 to V-REG-7: read after reset, read-only and reserved offsets, write-1-to-clear. -/
theorem test_registers :
    hostRead 0x14 State.reset = 0x000003E8 ∧ hostRead 0x04 State.reset = 0 ∧ hostRead 0x3C State.reset = 0 ∧
    nextWith (hostWrite 0x08 0xFFFFFFFF State.reset) (fun t => hostRead 0x08 t == 0) = true ∧
    nextWith (hostWrite 0x24 0x12345678 State.reset) (fun t => hostRead 0x24 t == 0) = true ∧
    nextWith (hostWrite 0x0C 0xDEADBEEF State.reset) (fun t => hostRead 0x0C t == 0xDEADBEEF) = true ∧
    nextWith (hostWrite 0x04 0xFFFFFFEF { ready with overrun := true }) (fun t => t.overrun) = true ∧
    nextWith (hostWrite 0x04 0x00000010 { ready with overrun := true }) (fun t => !t.overrun) = true := by
  decide

/-- V-REG-3 as host statements: WR 0x24 and RD 0x24 assemble, as they do by name; an odd offset is refused. -/
theorem test_assembles_offsets :
    assembleAll [.wr (.offset 0x24) 0x12345678, .rd (.offset 0x24), .expect (.offset 0x3C) 0xFFFFFFFF 0] =
      some [.wr 0x24 4 0x12345678, .rd 0x24 4, .expect 0x3C 0xFFFFFFFF 0] ∧
    assemble (.rd (.name .fbBase)) = assemble (.rd (.offset 0x0C)) ∧ assemble (.rd (.offset 2)) = none ∧
    assemble (.wr (.offset 64) 0) = none := by
  decide

/-- V-REG-10, V-REG-11, V-REG-16: packed STATUS words. -/
theorem test_status_words :
    statusWord ready = 0x00007B02 ∧ statusWord faulted = 0x00001104 ∧
    statusWord (issued 0x00140003 ready) = 0x00007B0A ∧
    (hostRead 0x04 (poweringUp 1 0)).extractLsb' 0 3 = 1 ∧ (hostRead 0x04 (poweringDown 1 0)).extractLsb' 0 3 = 3 := by
  decide

/-- V-RES-9, V-RES-10, V-RES-4, V-RES-14: packed RESULT words. -/
theorem test_result_words :
    resultWord 3 .commTimeout 0 1 10 = 0x830A0102 ∧ resultWord 3 .commTimeout 0 4 175 = 0x83AF0402 ∧
    resultWord 1 .selftestFailure 2 0 0 = 0x81000021 ∧ resultWord 15 .illegalCommand 0 0 0 = 0x8F000005 := by
  decide

/-! ### One step of each command -/

/-- V-CMD-2: 0xFFFFFFF0 leaves BUSY and RESULT. V-OVR-2: while BUSY = 1, a NOP sets OVERRUN. -/
theorem test_nop :
    nextWith (cmdWrite 0xFFFFFFF0 faulted) (fun t => !t.busy && t.result == 0x81000001) = true ∧
    nextWith (cmdWrite 0x00000000 (issued 1 State.reset)) (fun t => t.overrun && t.busy) = true := by
  decide

/-- V-PWR-6 (POWER_UP in Ready) and the start from Off. -/
theorem test_power_up :
    nextWith (exec (.powerUp 0) (issued 1 ready)) (fun t => t.result == 0x81000003 && statusWord t == 0x00007B02) = true ∧
    nextWith (exec (.powerUp 0) (issued 1 State.reset)) (fun t => statusWord t == 0x00000009) = true := by
  decide

/-- V-PWR-2 and V-PWR-1: the evaluation of the driver-ID byte, 0x03 failing and 0x02 passing. -/
theorem test_power_up_check :
    nextWith (exec (.powerUp 0) { poweringUp 9 8 with rx := 0x03 })
      (fun t => statusWord t == 0x0000110C && t.stRaw == 3 && t.pc == .complete .selftestFailure 0 0 0) = true ∧
    nextWith (exec (.powerUp 0) { poweringUp 9 8 with rx := 0x02 })
      (fun t => statusWord t == 0x00001209 && t.stRaw == 2 && t.pc == .pu 10 0) = true := by
  decide

/-- V-PWR-5: POWER_DOWN in Off. V-PWR-4, event 16: SetLine(DISCHARGE, 1). -/
theorem test_power_down :
    nextWith (exec (.powerDown 0) (issued 2 State.reset)) (fun t => t.result == 0x82000003 && statusWord t == 0) = true ∧
    nextWith (exec (.powerDown 0) (poweringDown 3 0))
      (fun t => t.events == [.setLine .discharge true] && t.lines.discharge) = true := by
  decide

/-- V-UPD-5 and V-UPD-1's latch: LAST_TEMP 0x00050014, STAGE_MS 1260. -/
theorem test_update_full :
    nextWith (exec (.updateFull 20 0) (issued 0x00140003 State.reset)) (fun t => t.result == 0x83000003) = true ∧
    nextWith (exec (.updateFull 20 0) (running 0x00140003 .latch ready))
      (fun t => t.lastTemp == 0x00050014 && t.stageMs == 1260 && t.upd.k == 1) = true := by
  decide

/-- V-UPD-6 with FB_LEN = 5807, and V-TMP-3's latch at −10 degrees. -/
theorem test_update_partial :
    nextWith (exec (.updatePartial 20 0) (issued 0x00140013 { ready with fbLen := 5807 }))
      (fun t => t.result == 0x83000004 && t.session == .ready) = true ∧
    nextWith (exec (.updatePartial 0xFFF6 0) (running 0xFFF60013 .latch ready))
      (fun t => t.lastTemp == 0x0000FFF6 && t.stageMs == 10710 && t.upd.modeL == .partialUpd) = true := by
  decide

/-- V-CMD-12 and V-CMD-14. -/
theorem test_reserved :
    nextWith (exec (.reserved4to7 4 0) (issued 0x00000004 ready)) (fun t => t.result == 0x84000005) = true ∧
    nextWith (exec (.reserved8toF 8 0x0014000) (issued 0x00140008 ready)) (fun t => t.result == 0x88000005) = true := by
  decide

/-- V-BW-3: the busy sample at elapsed 1001 of row 10 times out; V-BW-4: that at elapsed 1000 does not; V-BW-7: a 0
sample wins past the bound. -/
theorem test_busy_bound :
    nextWith (exec (.updateFull 20 0) { updating (.wait .sample) with now := 1001, busyQueue := [true] })
      (fun t => t.session == .faulted && t.pc == .complete .commTimeout 0 1 10 && t.events == [.readBusy true]) = true ∧
    nextWith (exec (.updateFull 20 0) { updating (.wait .sample) with now := 1000, busyQueue := [true] })
      (fun t => t.session == .ready && t.pc == .wait .delay) = true ∧
    nextWith (exec (.updateFull 20 0) { updating (.wait .sample) with now := 1001, busyQueue := [false] })
      (fun t => t.session == .ready && t.pc == .row) = true := by
  decide

/-- V-MEM-3: byte 16 of row 0 wraps to address 0. -/
theorem test_fetch_wraps :
    nextWith (exec (.updateFull 20 0)
        { updating (.fetch 16) with upd := { (updating .idle).upd with r := 0 }, mem := [(0, 0xA5)] })
      (fun t => t.fbReads == [(0, 0xA5)] && t.rowBuf[16] == 0xA5 && t.pc == .fetch 17) = true := by
  decide

/-! ### Temperature, lines, frames -/

/-- V-TMP-1 to V-TMP-17, the values around each breakpoint. -/
theorem test_buckets :
    [-32768, -10, -9, -5, -4, 5, 6, 10, 11, 15, 16, 20, 21, 40, 41, 32767].map bucket =
      [0, 0, 1, 1, 2, 2, 3, 3, 4, 4, 5, 5, 6, 6, 7, 7] ∧
    [0, 1, 2, 3, 4, 5, 6, 7].map (stageDuration refcfg .full) = [10710, 7560, 5040, 2520, 1890, 1260, 630, 441] := by
  decide

/-- V-ENC-3, V-ENC-8 and V-ENC-15. -/
theorem test_lines :
    lineList refcfg 0 (.image .norm) ((Vector.replicate 33 0).set 0 0x80) =
      [0xC0] ++ List.replicate 43 0 ++ List.replicate 32 0xAA ++ [0xEA] ++ List.replicate 33 0xAA ++ [0] ∧
    lineList refcfg 175 (.image .norm) ((Vector.replicate 33 0).set 32 0x01) =
      List.replicate 43 0 ++ [0x03] ++ List.replicate 65 0xAA ++ [0xEA, 0] ∧
    lineList { refcfg with lineLayout := .evenScanOddDummy } 0 (.image .norm) ((Vector.replicate 33 0).set 0 0x80) =
      List.replicate 32 0xAA ++ [0xEA, 0xC0] ++ List.replicate 43 0 ++ List.replicate 33 0xAA ++ [0] := by
  decide

/-- V-ENC-7d and V-ENC-14. -/
theorem test_inverse_and_dummy_lines :
    lineList refcfg 1 (.image .inv) (Vector.replicate 33 0x55) =
      [0x30] ++ List.replicate 43 0 ++ List.replicate 33 0xFF ++ List.replicate 33 0x55 ++ [0] ∧
    dummyLine refcfg = List.replicate 44 0 ++ List.replicate 66 0x55 ++ [0] := by
  decide

/-- V-FRM-1. -/
theorem test_reg_write :
    regWrite refcfg 0x07 0xD1 =
      [.setLine .cs true, .write 0x70, .write 0x07, .setLine .cs false,
        .setLine .cs true, .write 0x72, .write 0xD1, .setLine .cs false] := by
  decide

/-! ### Duties -/

/-- R167: a write to the window is a breach while an UPDATE runs, and only then; R166: a CMD write while BUSY = 1. -/
theorem test_host_duties :
    hostKeeps { issued 0x00140003 ready with host := [.memWr 0xFFFFFFF0 0] } = false ∧
    hostKeeps { issued 0x00140003 ready with host := [.memWr 0x0000169F 0] } = false ∧
    hostKeeps { issued 0x00140003 ready with host := [.memWr 0x000016A0 0] } = true ∧
    hostKeeps { issued 0x00000002 ready with host := [.memWr 0xFFFFFFF0 0] } = true ∧
    hostKeeps { ready with host := [.memWr 0xFFFFFFF0 0] } = true ∧
    hostKeeps { issued 0x00000002 ready with host := [.wr 0 4 0] } = false := by
  decide

/-! ### Witnesses -/

theorem inv_ready : Inv ready :=
  ⟨by decide, rfl, ⟨fun _ => rfl, fun _ => rfl⟩, rfl, rfl, rfl, rfl, ⟨rfl, rfl, rfl, rfl⟩, rfl⟩

theorem inv_faulted : Inv faulted :=
  ⟨by decide, rfl, ⟨fun _ => rfl, fun _ => rfl⟩, rfl, rfl, rfl, rfl, ⟨rfl, rfl, rfl, rfl⟩, rfl⟩

/-- DecodeOfEncode: well-formed commands at the ends of the OP ranges. -/
theorem witness_DecodeOfEncode :
    Instr.wf (.reserved4to7 4 0) = true ∧ Instr.wf (.reserved4to7 7 0xFFFFFFF) = true ∧
      Instr.wf (.reserved8toF 8 0) = true ∧ Instr.wf (.reserved8toF 15 0) = true ∧
      Instr.wf (.updateFull 0x8000 0x7FF) = true := by
  decide

/-- BytesDecode: sequences shorter than a word. -/
theorem witness_BytesDecode : ([] : List Byte).length < 4 ∧ ([0, 0, 0] : List Byte).length < 4 := by
  decide

/-- IgnoredBitsChangeNothing: two words that differ in the ignored bits alone, and a running command that is no UPDATE. -/
theorem witness_IgnoredBitsChangeNothing :
    (0x00140003 : Word) ≠ 0x0014FFE3 ∧ opField 0x00140003 = opField 0x0014FFE3 ∧
      modeField 0x00140003 = modeField 0x0014FFE3 ∧ tempField 0x00140003 = tempField 0x0014FFE3 ∧
      (issued 1 State.reset).cur.op ≠ 3 := by
  decide

/-- StepTakesTurn, StepRunsIssuedWord and StepRunsPlacedWord: a scheduled HOST turn with a CMD write next, an idle
engine; and a parameter set that is not well formed. -/
theorem witness_StepRunsIssuedWord :
    (State.reset.withFetchWord 32 1).par.wf = true ∧ (State.reset.withFetchWord 32 1).turns = .host :: [] ∧
      (State.reset.withFetchWord 32 1).host = .wr 0 4 1 :: [] ∧ (State.reset.withFetchWord 32 1).busy = false ∧
      State.reset.par.wf = true ∧ (State.resetWith { refcfg with stagesFull := [] }).par.wf = false := by
  decide

/-- StepRunsCommandInFlight: an ENGINE turn with a command in flight. -/
theorem witness_StepRunsCommandInFlight :
    { updating .row with turns := [.engine] }.par.wf = true ∧
      { updating .row with turns := [.engine] }.turns = .engine :: [] ∧
      { updating .row with turns := [.engine] }.busy = true := by
  decide

/-- HostReadChangesNothing, HostAccessRules, OddAccessRefused: offsets at the ends of the window, and odd accesses. -/
theorem witness_HostAccess :
    (0x3C % 4 = 0 ∧ 0x3C < 64 ∧ { State.reset with host := [.rd 0x3C 4] }.host = .rd 0x3C 4 :: []) ∧
      0x24 ≤ 0x24 ∧ 0x24 ≤ 0x3C ∧ 0x20 ∈ [0x08, 0x18, 0x1C, 0x20] ∧
      ¬ (4 = 4 ∧ 64 % 4 = 0 ∧ 64 < 64) ∧ ¬ (2 = 4 ∧ 0 % 4 = 0 ∧ 0 < 64) ∧ ¬ (4 = 4 ∧ 2 % 4 = 0 ∧ 2 < 64) ∧
      { State.reset with host := [.wr 64 4 0] }.host = .wr 64 4 0 :: [] ∧
      { issued 1 State.reset with host := [.wr 0 4 1] }.host = .wr 0 4 1 :: [] ∧ 0 % 4 = 0 ∧ 0 < 64 ∧
      { State.reset with host := [.wr 0x3C 4 1] }.host = .wr 0x3C 4 1 :: [] ∧
      { State.reset with host := [.expect 64 0 0] }.host = .expect 64 0 0 :: [] ∧ ¬ (64 % 4 = 0 ∧ 64 < 64) ∧
      { State.reset with host := [.expect 2 0 0] }.host = .expect 2 0 0 :: [] ∧ ¬ (2 % 4 = 0 ∧ 2 < 64) ∧
      { State.reset with host := [.expect 60 0 0] }.host = .expect 60 0 0 :: [] ∧ 60 % 4 = 0 ∧ 60 < 64 := by
  decide

/-- HostAssembly: the ends of the temperature range, and the two pseudo-operations. -/
theorem witness_HostAssembly :
    ((-32768 : Int) ≤ -32768 ∧ (32767 : Int) ≤ 32767 ∧ (-32769 : Int) < -32768 ∧ (32767 : Int) < 32768) ∧
      { issued 1 State.reset with host := [.waitIdle] }.host = .waitIdle :: [] ∧
      { State.reset with host := [.expect 4 0xFFFFFFFF 0] }.host = .expect 4 0xFFFFFFFF 0 :: [] ∧ 4 % 4 = 0 := by
  decide

/-- CmdWriteAccepts and NopHasNoEffect: an idle and a busy engine; a NOP and a word that is none. -/
theorem witness_CmdWriteAccepts :
    (issued 1 State.reset).busy = true ∧ State.reset.busy = false ∧ opField 0xFFFFFFF0 = 0 ∧ opField 1 ≠ 0 := by
  decide

/-- ReservedIsIllegal: both rows at the ends of their OP ranges, in Ready and Faulted, idle. -/
theorem witness_ReservedIsIllegal :
    Instr.wf (.reserved4to7 7 0) = true ∧ Instr.wf (.reserved8toF 15 0) = true ∧ ready.busy = false ∧
      faulted.busy = false := by
  decide

/-- OverrunIsSticky: the two turns that clear OVERRUN. -/
theorem witness_OverrunIsSticky :
    (issued 1 State.reset).busy = true ∧ { State.reset with overrun := true }.overrun = true ∧
      nextWith (takeTurn .rst { State.reset with overrun := true }) (fun t => !t.overrun) = true ∧
      nextWith (takeTurn .host { State.reset with overrun := true, host := [.wr 4 4 0x10] }) (fun t => !t.overrun) = true := by
  decide

/-- CompletionStep: a completion at the ends of its fields, an ENGINE turn that changes RESULT and clears BUSY, and a
HOST turn that sets BUSY. -/
theorem witness_CompletionStep :
    (∀ x, Instr.updateFull 20 0 ≠ .nop x) ∧ (updating (.complete .commTimeout 0 15 175)).busy = true ∧
      (updating (.complete .commTimeout 0 15 175)).pc = .complete .commTimeout 0 15 175 ∧
      nextWith (takeTurn .engine (updating (.complete .commTimeout 0 15 175)))
        (fun t => t.result == 0x83AF0F02 && !t.busy && t.pc == .idle) = true ∧
      (ready.busy = false ∧
        nextWith (takeTurn .host { ready with host := [.wr 0 4 0x00140003] }) (fun t => t.busy) = true) :=
  ⟨(fun _ h => by cases h), rfl, rfl, by decide⟩

/-- NotReadyAndInvalidInput: each command turned away, and both sides of the length test. -/
theorem witness_NotReadyAndInvalidInput :
    (issued 0x00140003 faulted).busy = true ∧ (issued 0x00140003 faulted).pc = .dispatch ∧
      (issued 0x00140003 faulted).session ≠ .ready ∧ (issued 2 State.reset).session = .off ∧
      (issued 1 ready).session = .ready ∧ (issued 0x00140003 ready).cur.fbl = 5808 ∧
      (issued 0x00140003 { ready with fbLen := 5807 }).cur.fbl ≠ 5808 := by
  decide

/-- PowerCommandsStart: POWER_UP in Off and Faulted, POWER_DOWN in Ready and Faulted, at DISPATCH. -/
theorem witness_PowerCommandsStart :
    (issued 1 State.reset).busy = true ∧ (issued 1 State.reset).pc = .dispatch ∧
      (issued 1 State.reset).session = .off ∧ (issued 1 faulted).session = .faulted ∧
      (issued 2 ready).session = .ready ∧ (issued 2 faulted).session = .faulted := by
  decide

/-- SequencerEmits: the first and the last step of each list, a read, a Delay of each list, and a finished LINE, WAIT
and REGW. -/
theorem witness_SequencerEmits :
    ((poweringUp 1 0).busy = true ∧ (poweringUp 1 0).pc = .pu 1 0 ∧
        (puList refcfg)[1 - 1]? = some (.line .ioEnable true) ∧
        (SeqStep.acts refcfg (.line .ioEnable true))[0]? = some (.setLine .ioEnable true)) ∧
      ((puList refcfg)[14 - 1]? = some (.check .dcLevel) ∧
        (SeqStep.acts refcfg (.check .dcLevel))[6]? = some (.read 0)) ∧
      ((poweringUp 3 0).pc = .pu 3 0 ∧ (puList refcfg)[3 - 1]? = some (.wait 5) ∧
        (SeqStep.acts refcfg (.wait 5))[0]? = some (.delay 5)) ∧
      ((poweringDown 4 0).pc = .pd 4 0 ∧ (pdList refcfg)[4 - 1]? = some (.wait 150) ∧
        (SeqStep.acts refcfg (.wait 150))[0]? = some (.delay 150)) ∧
      ((poweringDown 9 0).busy = true ∧ (poweringDown 9 0).pc = .pd 9 0 ∧
        (pdList refcfg)[9 - 1]? = some (.line .ioEnable false) ∧
        (SeqStep.acts refcfg (.line .ioEnable false))[0]? = some (.setLine .ioEnable false)) ∧
      ((SeqStep.acts refcfg (.line .ioEnable false)).length ≤ 1 ∧ (poweringDown 9 1).pc = .pd 9 1) ∧
      ((SeqStep.acts refcfg (.wait 5)).length ≤ 1 ∧ held (poweringUp 3 1) = false ∧ (poweringUp 3 1).pc = .pu 3 1 ∧
        (puList refcfg)[3 - 1]? = some (.wait 5)) ∧
      ((SeqStep.acts refcfg (.regw 7 0xD1)).length ≤ 8 ∧ (puList refcfg)[11 - 1]? = some (.regw 7 0xD1)) := by
  decide

/-- CheckIsEvaluated: a passing and a failing byte of each check. -/
theorem witness_CheckIsEvaluated :
    ((poweringUp 9 8).busy = true ∧ (poweringUp 9 8).pc = .pu 9 8 ∧
        (puList refcfg)[9 - 1]? = some (.check .driverId)) ∧
      checkPasses .driverId 0xF2 = true ∧ checkPasses .driverId 0x03 = false ∧ checkPasses .breakage 0xFF = true ∧
      checkPasses .breakage 0x7F = false ∧ checkPasses .dcLevel 0xBF = true ∧ checkPasses .dcLevel 0x40 = false := by
  decide

/-- ListsEnd: the positions after the lists. -/
theorem witness_ListsEnd :
    (poweringUp 15 0).busy = true ∧ (poweringUp 15 0).pc = .pu 15 0 ∧ (poweringDown 10 0).busy = true ∧
      (poweringDown 10 0).pc = .pd 10 0 := by
  decide

/-- POWER_UP accepted in Off, with the panel's three answers queued. -/
def powerUpStart (l : List Byte) : State := { issued 1 State.reset with rxQueue := l }

/-- PowerUpRuns: the four outcomes (V-PWR-1, V-PWR-2, V-PWR-3, V-PWR-3b). -/
theorem witness_PowerUpRuns :
    Inv (powerUpStart [0x02, 0x80, 0x00]) ∧ (powerUpStart [0x02, 0x80, 0x00]).pc = .dispatch ∧
      (powerUpStart [0x02, 0x80, 0x00]).cur.op = 1 ∧ (powerUpStart [0x02, 0x80, 0x00]).session = .off ∧
      checkPasses .driverId 0x03 = false ∧ checkPasses .driverId 0x02 = true ∧ checkPasses .breakage 0x7F = false ∧
      checkPasses .breakage 0x80 = true ∧ checkPasses .dcLevel 0x40 = false ∧ checkPasses .dcLevel 0x00 = true :=
  ⟨⟨by decide, rfl, ⟨(fun h => by cases h), (fun h => by cases h)⟩, rfl, rfl, rfl, rfl, ⟨rfl, rfl, rfl, rfl⟩, rfl⟩,
    by decide⟩

/-- PowerUpFromFaultedRuns: POWER_UP accepted in Faulted, with the panel's three answers queued. -/
theorem witness_PowerUpFromFaultedRuns :
    Inv { issued 1 faulted with rxQueue := [0x02, 0x80, 0x00] } ∧ (issued 1 faulted).pc = .dispatch ∧
      (issued 1 faulted).cur.op = 1 ∧ (issued 1 faulted).session = .faulted :=
  ⟨⟨by decide, rfl, ⟨(fun h => by cases h), (fun h => by cases h)⟩, rfl, rfl, rfl, rfl, ⟨rfl, rfl, rfl, rfl⟩, rfl⟩,
    by decide⟩

/-- PowerDownRuns: POWER_DOWN accepted in Ready and in Faulted. -/
theorem witness_PowerDownRuns :
    (Inv (issued 2 ready) ∧ (issued 2 ready).pc = .dispatch ∧ (issued 2 ready).cur.op = 2 ∧
        (issued 2 ready).session = .ready) ∧
      Inv (issued 2 faulted) ∧ (issued 2 faulted).session = .faulted :=
  ⟨⟨⟨by decide, rfl, ⟨(fun h => by cases h), (fun h => by cases h)⟩, rfl, rfl, rfl, rfl, ⟨rfl, rfl, rfl, rfl⟩, rfl⟩,
      by decide⟩,
    ⟨by decide, rfl, ⟨(fun h => by cases h), (fun h => by cases h)⟩, rfl, rfl, rfl, rfl, ⟨rfl, rfl, rfl, rfl⟩, rfl⟩,
    by decide⟩

/-- UpdateLatches, RowIsFetched, LineIsEncoded, StageLoop: an update at each position the statements name, the first and
the last stage of each mode's list. -/
theorem witness_update_positions :
    (updating .latch).busy = true ∧ (updating .latch).pc = .latch ∧ (updating (.fetch 0)).pc = .fetch 0 ∧
      (updating (.fetch 32)).pc = .fetch 32 ∧ (updating .row).pc = .row ∧ (updating .encode).pc = .encode ∧
      (updating .row).upd.modeL = .full ∧ refcfg.stagesFull[(updating .row).upd.k.toNat - 1]? = some .comp ∧
      refcfg.stagesFull[(4 : BitVec 4).toNat - 1]? = some .normal ∧
      refcfg.stagesPartial[(1 : BitVec 4).toNat - 1]? = some .comp ∧ (updating .stageStart).pc = .stageStart ∧
      (updating .passEnd).pc = .passEnd := by
  decide

/-- StageLoop: another pass just before the stage's duration is over, none at it, and the last stage. -/
theorem witness_StageLoop :
    ({ updating .passEnd with now := 1259 }.now - (updating .passEnd).upd.tStage0).toNat <
        (updating .passEnd).upd.stageMsL.toNat ∧
      (updating .passEnd).upd.stageMsL.toNat ≤
        ({ updating .passEnd with now := 1260 }.now - (updating .passEnd).upd.tStage0).toNat ∧
      (updating .passEnd).upd.k.toNat < (stagesOf refcfg .full).length ∧
      (stagesOf refcfg .full).length ≤ (4 : BitVec 4).toNat := by
  decide

/-- LatchHolds, ParametersAndClock, OnlyTheHostWritesMemory: a turn that is no reset and stands at no latch; a HOST turn
while the engine stands at the latch; a HOST turn that writes no memory, and one that writes a byte. -/
theorem witness_LatchHolds :
    nextWith (takeTurn .clock (updating .row)) (fun t => t.now == 1) = true ∧ Turn.clock ≠ .rst ∧ Turn.clock ≠ .host ∧
      ¬ (Turn.engine = .engine ∧ (updating .row).pc = .latch) ∧
      nextWith (takeTurn .host { updating .latch with host := [.rd 0x18 4] }) (fun t => t.lastTemp == 0) = true ∧
      (updating .latch).pc = .latch ∧ Turn.host ≠ .rst ∧ Turn.host ≠ .engine ∧
      nextWith (takeTurn .host { ready with host := [.wr 0x0C 4 1] }) (fun t => t.mem == ready.mem) = true ∧
      { ready with host := [.memWr 5 7] }.host = .memWr 5 7 :: [] := by
  decide

/-- ReadsAreAdmitted: a backed address that no host write raced, and a running command; an idle engine with an old race
record, a word that is no NOP, and a backed address. -/
theorem witness_ReadsAreAdmitted :
    { updating .row with mem := [(5, 7)] }.mem.read (5 : Word).toNat = some 7 ∧
      (∀ e ∈ (updating .row).race, e.1 ≠ (5 : Word).toNat) ∧ (updating .row).busy = true ∧
      { ready with mem := [(5, 7)], race := [(5, some 9)] }.busy = false ∧ opField 0x00140003 ≠ 0 ∧
      { ready with mem := [(5, 7)], race := [(5, some 9)] }.mem.read (5 : Word).toNat = some 7 ∧
      { updating .row with host := [.memWr 5 8] }.host = .memWr 5 8 :: [] := by
  decide

/-- LineByOffset, UniformLines, PixelsRoundTrip, ScanSelectsOneRow: REFCFG, the ends of the ranges, and the other
layout. -/
theorem witness_lines :
    refcfg.lineLayout = .scanDataDummy ∧ refcfg.codesDistinct = true ∧ 263 < 264 ∧ 32 ≤ 32 ∧
      refcfg.scanPattern.toList.Nodup ∧ (∀ v ∈ refcfg.scanPattern.toList, v ≠ 0) ∧ (175 : BitVec 8).toNat ≤ 175 ∧
      { refcfg with lineLayout := .evenScanOddDummy }.codesDistinct = true ∧
      { refcfg with lineLayout := .evenScanOddDummy }.lineLayout = .evenScanOddDummy ∧ 43 < 44 := by
  decide

/-- FrameCounts: a line of 111 bytes, and parameters with and without a commit write. -/
theorem witness_FrameCounts :
    (List.replicate 111 (0 : Byte)).length = 111 ∧ refcfg.lineCommit = none ∧
      { refcfg with lineCommit := some (2, 7) }.lineCommit ≠ none := by
  decide

/-- UpdateFramesEmit: the first and the last event of each frame, and the position after them. -/
theorem witness_UpdateFramesEmit :
    ((updating (.line 0)).busy = true ∧ (updating (.line 0)).pc = .line 0 ∧
        (lineTx refcfg (updating (.line 0)).lineBuf.toList)[0]? = some (.setLine .cs true)) ∧
      ((lineTx refcfg (updating (.line 118)).lineBuf.toList).length ≤ 118 ∧ (updating (.line 118)).pc = .line 118) ∧
      (lineTx refcfg (updating (.line 117)).lineBuf.toList)[117]? = some (.setLine .cs false) ∧
      ((updating (.handshake 7)).pc = .handshake 7 ∧ (regWrite refcfg 2 0x24)[7]? = some (.setLine .cs false)) ∧
      ((updating (.settle 6)).pc = .settle 6 ∧ (lineTx refcfg (dummyLine refcfg))[6]? = some (.write 0)) := by
  decide

/-- BusyWaitSteps: every phase of both waits, both samples, the bound at and past its value, and rows 174 and 175. -/
theorem witness_BusyWaitSteps :
    (updating (.wait .start)).pc = waitAt false .start ∧ (updating (.settleWait .start)).pc = waitAt true .start ∧
      (updating (.wait .sample)).pc = waitAt false .sample ∧ (updating (.settleWait .sample)).pc = waitAt true .sample ∧
      busyLevel { updating (.wait .sample) with busyQueue := [true] } = true ∧
      busyLevel { updating (.settleWait .sample) with busyQueue := [false] } = false ∧ (174 : BitVec 8).toNat < 175 ∧
      175 ≤ (175 : BitVec 8).toNat ∧
      (updating (.wait .sample)).upd.timeoutL.toNat <
        ({ updating (.wait .sample) with now := 1001 }.now - (updating (.wait .sample)).upd.tWait0).toNat ∧
      ({ updating (.wait .sample) with now := 1000 }.now - (updating (.wait .sample)).upd.tWait0).toNat ≤
        (updating (.wait .sample)).upd.timeoutL.toNat ∧
      { (updating .row).upd with timeoutL := 0xFFFFFFFF }.timeoutL = 0xFFFFFFFF ∧
      (updating (.wait .delay)).pc = waitAt false .delay ∧ (updating (.settleWait .delay)).pc = waitAt true .delay ∧
      (updating (.wait .hold)).pc = waitAt false .hold ∧ (updating (.settleWait .hold)).pc = waitAt true .hold := by
  decide

/-- TimeoutIsReported: a wait of the stage loop and the settle wait, a busy sample past the bound. -/
theorem witness_TimeoutIsReported :
    { updating (.wait .sample) with now := 1001, busyQueue := [true] }.busy = true ∧
      { updating (.wait .sample) with now := 1001, busyQueue := [true] }.pc = waitAt false .sample ∧
      busyLevel { updating (.wait .sample) with now := 1001, busyQueue := [true] } = true ∧
      { updating (.settleWait .sample) with now := 1001, busyQueue := [true] }.pc = waitAt true .sample ∧
      (updating .row).upd.timeoutL.toNat < ((1001 : Word) - (updating .row).upd.tWait0).toNat := by
  decide

/-- DelayHolds: the lengths 0 and 5, and an ENGINE held in a power-up delay, in the discharge dwell under POWER_DOWN and
POWER_UP, and in the poll delay of both waits. -/
theorem witness_DelayHolds :
    0 ≤ (0 : Word).toNat ∧ 5 ≤ (5 : Word).toNat ∧ held (emit (.delay 5) State.reset) = true ∧
      (held { poweringUp 3 1 with nDelay := 5 } = true ∧ (poweringUp 3 1).cur.op = 1 ∧ (poweringUp 3 1).busy = true ∧
        (puList refcfg)[3 - 1]? = some (.wait 5)) ∧
      (held { poweringDown 4 1 with nDelay := 150 } = true ∧ (poweringDown 4 1).cur.op = 2 ∧
        (poweringDown 4 1).busy = true ∧ (poweringDown 4 1).pc = .pd 4 1 ∧
        (pdList refcfg)[4 - 1]? = some (.wait 150)) ∧
      (running 0x00000001 (.pd 4 1) faulted).cur.op = 1 ∧
      (held { updating (.wait .hold) with nDelay := 1 } = true ∧ (updating (.wait .hold)).cur.op = 3 ∧
        (updating (.wait .hold)).pc = waitAt false .hold ∧ (updating (.settleWait .hold)).pc = waitAt true .hold) := by
  decide

/-- HandshakeAndSettle: the end of the handshake, the end of the dummy line, and a settle sample of 0. -/
theorem witness_HandshakeAndSettle :
    (updating (.handshake 8)).pc = .handshake 8 ∧ (lineTx refcfg (dummyLine refcfg)).length ≤ 118 ∧
      (updating (.settleWait .sample)).pc = .settleWait .sample ∧
      busyLevel { updating (.settleWait .sample) with busyQueue := [false] } = false := by
  decide

/-- The UPDATE of word w accepted in Ready on a panel that is never busy. -/
def updateStart (w : Word) : State := { issued w ready with busyQueue := List.replicate 705 false ++ [] }

theorem inv_updateFull : Inv (updateStart 0x00140003) :=
  ⟨by decide, rfl, ⟨(fun h => by cases h), (fun h => by cases h)⟩, rfl, rfl, rfl, rfl, ⟨rfl, rfl, rfl, rfl⟩, rfl⟩

theorem inv_updatePartial : Inv (updateStart 0x00140013) :=
  ⟨by decide, rfl, ⟨(fun h => by cases h), (fun h => by cases h)⟩, rfl, rfl, rfl, rfl, ⟨rfl, rfl, rfl, rfl⟩, rfl⟩

/-- UpdateRuns: UPDATE_FULL 20 and UPDATE_PARTIAL 20. -/
theorem witness_UpdateRuns :
    (Inv (updateStart 0x00140003) ∧ (updateStart 0x00140003).pc = .dispatch ∧ (updateStart 0x00140003).cur.op = 3 ∧
      (updateStart 0x00140003).session = .ready ∧ (updateStart 0x00140003).cur.fbl = 5808 ∧
      (updateStart 0x00140003).busyQueue =
        List.replicate (176 * (stagesOf refcfg (modeOfBit (updateStart 0x00140003).cur.mode)).length + 1) false ++ []) ∧
    (Inv (updateStart 0x00140013) ∧ (updateStart 0x00140013).pc = .dispatch ∧ (updateStart 0x00140013).cur.op = 3 ∧
      (updateStart 0x00140013).session = .ready ∧ (updateStart 0x00140013).cur.fbl = 5808 ∧
      (updateStart 0x00140013).cur.mode = 1 ∧
      (updateStart 0x00140013).busyQueue =
        List.replicate (176 * (stagesOf refcfg (modeOfBit (updateStart 0x00140013).cur.mode)).length + 1) false ++ []) :=
  ⟨⟨inv_updateFull, rfl, rfl, rfl, rfl, rfl⟩, inv_updatePartial, rfl, rfl, rfl, rfl, rfl, rfl⟩

/-- StepKeepsInvariant: a state of the invariant whose next step is a CLOCK turn. -/
theorem witness_StepKeepsInvariant :
    Inv { ready with turns := [.clock] } ∧
      step { ready with turns := [.clock] } = .next { ready with now := 1 } :=
  ⟨⟨by decide, rfl, ⟨fun _ => rfl, fun _ => rfl⟩, rfl, rfl, rfl, rfl, ⟨rfl, rfl, rfl, rfl⟩, rfl⟩, rfl⟩

/-- SessionTable, RecordWriters: a reset from Ready, and POWER_UP's first step from Faulted (log 11). -/
theorem witness_SessionTable :
    Inv ready ∧ nextWith (takeTurn .rst ready) (fun t => t.session != ready.session && t.stRaw != ready.stRaw) = true ∧
      nextWith (takeTurn .engine (issued 1 faulted)) (fun t => t.session == .poweringDown) = true :=
  ⟨inv_ready, by decide⟩

/-- OneEventPerTurn, LinesMoveBySetLine, CommandFrames: an ENGINE turn that emits a SetLine. -/
theorem witness_OneEventPerTurn :
    nextWith (takeTurn .engine (poweringUp 1 0))
        (fun t => t.events == [.setLine .ioEnable true] && t.lines != (poweringUp 1 0).lines) = true ∧
      nextWith (exec (.powerUp 0) (poweringUp 1 0)) (fun t => t.lines.ioEnable) = true ∧ (poweringUp 1 0).busy = true ∧
      nextWith (exec (.updateFull 20 0) (updating .latch)) (fun t => t.busy) = true := by
  decide

/-- An idle panel in session Off, one millisecond after reset. -/
def off : State := { State.reset with now := 1 }

theorem inv_off : Inv off :=
  ⟨by decide, rfl, ⟨fun _ => rfl, fun _ => rfl⟩, rfl, rfl, rfl, rfl, ⟨rfl, rfl, rfl, rfl⟩, rfl⟩

/-- An idle panel in session Off with OVERRUN = 1. -/
def overrunOff : State := { off with overrun := true }

/-- An idle panel in session Ready with OVERRUN = 1. -/
def overrunReady : State := { ready with overrun := true }

theorem inv_overrunOff : Inv overrunOff :=
  ⟨by decide, rfl, ⟨fun _ => rfl, fun _ => rfl⟩, rfl, rfl, rfl, rfl, ⟨rfl, rfl, rfl, rfl⟩, rfl⟩

theorem inv_overrunReady : Inv overrunReady :=
  ⟨by decide, rfl, ⟨fun _ => rfl, fun _ => rfl⟩, rfl, rfl, rfl, rfl, ⟨rfl, rfl, rfl, rfl⟩, rfl⟩

/-- IdleEngineShows: idle engines in Off, Ready and Faulted, and with OVERRUN = 1 in Off and Ready. -/
theorem witness_IdleEngineShows :
    (Inv ready ∧ Inv faulted ∧ Inv off ∧ Inv overrunOff ∧ Inv overrunReady) ∧
      ready.busy = false ∧ ready.overrun = false ∧ ready.session = .ready ∧
      off.session = .off ∧ off.overrun = false ∧ off.busy = false ∧ overrunOff.busy = false ∧
      overrunOff.session = .off ∧ overrunOff.overrun = true ∧ overrunReady.busy = false ∧
      overrunReady.session = .ready ∧ overrunReady.overrun = true ∧
      statusWord overrunOff = 0x00000010 ∧ statusWord overrunReady = 0x00007B12 :=
  ⟨⟨inv_ready, inv_faulted, inv_off, inv_overrunOff, inv_overrunReady⟩, by decide⟩

/-- An update inside the bytes of a line, CS asserted, the next turn a transport that stops. -/
def shortLine : State := { updating (.line 6) with lines := ⟨true, false, false, true, true, true⟩, turns := [.short] }

/-- EngineIsNeverStuck: the two stops of the environment, from states of the invariant. -/
theorem witness_EngineIsNeverStuck :
    Inv shortLine ∧ step shortLine = .fault .shortWrite ∧ Inv { ready with turns := [.host], host := [.rd 64 4] } ∧
      step { ready with turns := [.host], host := [.rd 64 4] } = .refused .badHostAccess :=
  ⟨⟨by decide, rfl, ⟨(fun h => by cases h), (fun h => by cases h)⟩, rfl, rfl, rfl, rfl, ⟨rfl, rfl, rfl, rfl⟩, rfl⟩, rfl,
    ⟨by decide, rfl, ⟨fun _ => rfl, fun _ => rfl⟩, rfl, rfl, rfl, rfl, ⟨rfl, rfl, rfl, rfl⟩, rfl⟩, rfl⟩

end Sys2Proof.Machine.Tests
end

section
/-! O6, O23, O42, O53: whose turn a step takes, and what one turn emits. -/

namespace Sys2Proof.Machine

/-! ### A step is a turn (R11, R13) -/

/-- The entries of a vector are pairwise distinct exactly when its list has no duplicate. -/
theorem vector_nodup_iff {α : Type} {n : Nat} (v : Vector α n) :
    v.toList.Nodup ↔ ∀ i j : Fin n, i ≠ j → v[i] ≠ v[j] := by
  rw [List.nodup_iff_pairwise_ne, List.pairwise_iff_getElem]
  constructor
  · intro h i j hij
    rcases Nat.lt_or_gt_of_ne (Fin.val_ne_of_ne hij) with hlt | hgt
    · simpa using h i j (by simp) (by simp) hlt
    · simpa using (h j i (by simp) (by simp) hgt).symm
  · intro h i j hi hj hij
    rw [Vector.length_toList] at hi hj
    simpa using h ⟨i, hi⟩ ⟨j, hj⟩ (Fin.ne_of_lt hij)

/-- What R11 asks of a parameter set, as propositions. -/
theorem params_wf_iff (p : Params) : p.wf = true ↔
    (p.driveBlack ≠ p.driveWhite ∧ p.driveBlack ≠ p.driveNoChange ∧ p.driveWhite ≠ p.driveNoChange) ∧
    (∀ i j : Fin 8, i ≠ j → p.factor10[i] ≠ p.factor10[j]) ∧
    (1 ≤ p.stagesFull.length ∧ p.stagesFull.length ≤ 15) ∧
    (1 ≤ p.stagesPartial.length ∧ p.stagesPartial.length ≤ 15) := by
  rw [← vector_nodup_iff]
  simp [Params.wf, Params.codesDistinct, Params.factorsDistinct, Params.stagesBounded, and_assoc]

theorem step_scheduled {s : State} {t : Turn} {rest : List Turn} (hp : s.par.wf = true) (ht : s.turns = t :: rest) :
    step s = takeTurn t { s with turns := rest } := by
  simp [step, nextTurn, currentTurn, dropTurn, hp, ht]

theorem step_badParameters {s : State} (hp : s.par.wf = false) : step s = .refused .badParameters := by
  simp [step, nextTurn, hp]

/-! ### What one event binds (R64, R66) -/

/-- A read exchange binds rx to the byte its event records, and no other action touches rx or its queue (R66). -/
theorem emit_rx (a : Act) (s : State) :
    (∀ tx, a = .read tx → (emit a s).events = .spiByte tx (emit a s).rx :: s.events) ∧
      ((∀ tx, a ≠ .read tx) → (emit a s).rx = s.rx ∧ (emit a s).rxQueue = s.rxQueue) := by
  cases a with
  | read tx =>
    refine ⟨?_, fun h => absurd rfl (h tx)⟩
    rintro _ ⟨rfl⟩
    simp only [emit, emitRead]
    split <;> rfl
  | setLine name level => exact ⟨nofun, fun _ => ⟨rfl, rfl⟩⟩
  | write tx => exact ⟨nofun, fun _ => ⟨rfl, rfl⟩⟩
  | delay n => exact ⟨nofun, fun _ => ⟨rfl, rfl⟩⟩

/-- A Delay latches NOW and its length, and no other action touches the latch (R64). -/
theorem emit_delayLatch (a : Act) (s : State) :
    (∀ n, a = .delay n → (emit a s).tDelay0 = s.now ∧ (emit a s).nDelay = n) ∧
      ((∀ n, a ≠ .delay n) → (emit a s).tDelay0 = s.tDelay0 ∧ (emit a s).nDelay = s.nDelay) := by
  cases a with
  | delay n =>
    refine ⟨?_, fun h => absurd rfl (h n)⟩
    rintro _ ⟨rfl⟩
    exact ⟨rfl, rfl⟩
  | setLine name level => exact ⟨nofun, fun _ => ⟨rfl, rfl⟩⟩
  | write tx => exact ⟨nofun, fun _ => ⟨rfl, rfl⟩⟩
  | read tx =>
    refine ⟨nofun, fun _ => ?_⟩
    simp only [emit, emitRead]
    split <;> exact ⟨rfl, rfl⟩

/-! ### The steps of the sequencer (R117, R120, R121) -/

section RunList

variable {l : List SeqStep} {i ev : Nat} {st : SeqStep} {s : State} (hst : l[i - 1]? = some st)
include hst

theorem runList_emit {a : Act} (ha : (st.acts s.par)[ev]? = some a) (at_ : Nat → Nat → Pc) (done : State → State) :
    runList l at_ done i ev s = (emit a s).goto (at_ i (ev + 1)) := by
  simp [runList, hst, runFrame_emit ha]

theorem runList_endStep (hev : (st.acts s.par).length ≤ ev) (at_ : Nat → Nat → Pc) (done : State → State) :
    runList l at_ done i ev s = endStep st (at_ (i + 1) 0) s := by
  simp [runList, hst, runFrame_done (List.getElem?_eq_none hev)]

end RunList

/-- Only a CHECK and a WAIT that holds end otherwise than by going on (R64, R117, R119). -/
theorem endStep_goto {st : SeqStep} {s : State} (hc : ∀ c, st ≠ .check c) (hw : ∀ n, st = .wait n → held s = false)
    (next : Pc) : endStep st next s = s.goto next := by
  rcases endStep_cases st next s with h | ⟨n, hst, hheld, -⟩ | ⟨c, hst, -⟩
  · exact h
  · simp [hw n hst] at hheld
  · exact absurd hst (hc c)

theorem powerUpStep_pu {s : State} {i ev : Nat} (h : s.pc = .pu i ev) :
    powerUpStep s = .next (runList (puList s.par) .pu endPowerUp i ev s) := by
  simp [powerUpStep, h]

theorem powerUpStep_pd {s : State} {i ev : Nat} (h : s.pc = .pd i ev) :
    powerUpStep s = .next (runList (pdList s.par) .pd (endPowerDown .puStart) i ev s) := by
  simp [powerUpStep, h]

theorem powerDownStep_pd {s : State} {i ev : Nat} (h : s.pc = .pd i ev) :
    powerDownStep s = .next (runList (pdList s.par) .pd (endPowerDown (.complete .ok 0 0 0)) i ev s) := by
  simp [powerDownStep, h]

/-! ### The wire frames of an update (R65, R67) -/

/-- An action of a write frame: it moves CS, or sends a byte (R65, R67). -/
def Act.writesOrMovesCs : Act → Prop
  | .setLine name _ => name = .cs
  | .write _ => True
  | .read _ => False
  | .delay _ => False

theorem regWrite_writesOrMovesCs (p : Params) (idx val : Byte) : ∀ a ∈ regWrite p idx val, a.writesOrMovesCs := by
  simp [regWrite, Act.writesOrMovesCs]

theorem commitActs_writesOrMovesCs (p : Params) : ∀ a ∈ commitActs p, a.writesOrMovesCs := by
  unfold commitActs
  split
  · simp
  · exact regWrite_writesOrMovesCs p _ _

theorem lineTx_writesOrMovesCs (p : Params) (l : List Byte) : ∀ a ∈ lineTx p l, a.writesOrMovesCs := by
  simp only [lineTx, List.forall_mem_append]
  refine ⟨⟨⟨?_, ?_⟩, ?_⟩, commitActs_writesOrMovesCs p⟩
  · simp [lineHead, Act.writesOrMovesCs]
  · simp [Act.writesOrMovesCs]
  · simp [Act.writesOrMovesCs]

/-- All that an event of a write frame changes: the history by the event, pc, CS, and the free-value counter. -/
theorem emit_goto_writesOrMovesCs {a : Act} (ha : a.writesOrMovesCs) (s : State) (p : Pc) :
    (emit a s).goto p = { s with
        pc := p
        events := (emit a s).events
        lines := { s.lines with cs := (emit a s).lines.cs }
        draws := (emit a s).draws } ∧
      (emit a s).lines.cs = csAfter [a] s.lines.cs := by
  cases a with
  | setLine name level =>
    obtain rfl : name = .cs := ha
    exact ⟨rfl, rfl⟩
  | write tx => exact ⟨rfl, rfl⟩
  | read tx => exact ha.elim
  | delay n => exact ha.elim

theorem exec_update_running {s : State} (hb : s.busy = true) {i : Instr} {temp : BitVec 16} {r : BitVec 11}
    (hi : i = .updateFull temp r ∨ i = .updatePartial temp r) : exec i s = updateStep s := by
  rcases hi with rfl | rfl
  · exact exec_updateFull_running hb ..
  · exact exec_updatePartial_running hb ..

theorem updateStep_line {s : State} {ev : Nat} (h : s.pc = .line ev) :
    updateStep s =
      .next (runFrame (lineTx s.par s.lineBuf.toList) ev .line (fun t => t.goto (.wait .start)) s) := by
  simp [updateStep, h]

theorem updateStep_handshake {s : State} {ev : Nat} (h : s.pc = .handshake ev) :
    updateStep s =
      .next (runFrame (regWrite s.par s.par.idxTxDone s.par.valTxDone) ev .handshake endHandshake s) := by
  simp [updateStep, h]

theorem updateStep_settle {s : State} {ev : Nat} (h : s.pc = .settle ev) :
    updateStep s =
      .next (runFrame (lineTx s.par (dummyLine s.par)) ev .settle (fun t => t.goto (.settleWait .start)) s) := by
  simp [updateStep, h]

/-! ### What one turn emits (R14, R70) -/

/-- From s to t nothing is emitted and nothing is read from the frame buffer. -/
def Silent (s t : State) : Prop := t.events = s.events ∧ t.fbReads = s.fbReads

theorem goto_silent (s : State) (p : Pc) : Silent s (s.goto p) := ⟨rfl, rfl⟩

/-- From s to t at most one event is emitted or one byte read, never both (R14). -/
def AtMostOneEmission (s t : State) : Prop :=
  Silent s t ∨ (t.fbReads = s.fbReads ∧ ∃ e, t.events = e :: s.events) ∨
    (t.events = s.events ∧ ∃ c, t.fbReads = c :: s.fbReads)

theorem atMostOneEmission_emit (a : Act) (s : State) (p : Pc) : AtMostOneEmission s ((emit a s).goto p) :=
  .inr (.inl ⟨emit_fbReads a s, emit_events a s⟩)

/-- A state silent from one busy sample has emitted that sample alone. -/
theorem atMostOneEmission_readBusy {s t : State} (h : Silent (emitReadBusy s) t) : AtMostOneEmission s t :=
  .inr (.inl ⟨by simpa using h.2, _, by simpa using h.1⟩)

theorem runFrame_atMostOneEmission {done : State → State} {s : State} (hd : Silent s (done s)) (acts : List Act)
    (ev : Nat) (at_ : Nat → Pc) : AtMostOneEmission s (runFrame acts ev at_ done s) := by
  rcases runFrame_cases acts ev at_ done s with ⟨a, -, e⟩ | ⟨-, e⟩ <;> rw [e]
  · exact atMostOneEmission_emit ..
  · exact .inl hd

theorem endStep_silent (st : SeqStep) (next : Pc) (s : State) : Silent s (endStep st next s) := by
  rcases endStep_cases st next s with e | ⟨n, -, -, e⟩ | ⟨c, -, e⟩ <;> rw [e]
  · exact goto_silent ..
  · exact ⟨rfl, rfl⟩
  · rcases evalCheck_cases c next s with ⟨-, e⟩ | ⟨-, e⟩ <;> rw [e] <;> exact ⟨rfl, rfl⟩

theorem runList_atMostOneEmission {done : State → State} {s : State} (hd : Silent s (done s)) (l : List SeqStep)
    (at_ : Nat → Nat → Pc) (i ev : Nat) : AtMostOneEmission s (runList l at_ done i ev s) := by
  rcases runList_cases l at_ done i ev s with ⟨st, a, -, -, e⟩ | ⟨st, -, -, e⟩ | ⟨-, e⟩ <;> rw [e]
  · exact atMostOneEmission_emit ..
  · exact .inl (endStep_silent ..)
  · exact .inl hd

theorem busyWait_atMostOneEmission {ret : State → State} (hr : ∀ u, Silent u (ret u)) (stage : BitVec 4)
    (line : BitVec 8) (at_ : WaitPhase → Pc) (w : WaitPhase) (s : State) :
    AtMostOneEmission s (busyWait stage line at_ ret w s) := by
  rcases busyWait_cases stage line at_ ret w s with
    ⟨-, e⟩ | ⟨-, -, e⟩ | ⟨-, -, -, e⟩ | ⟨-, -, -, e⟩ | ⟨-, e⟩ | ⟨-, -, e⟩ | ⟨-, -, e⟩ <;> rw [e]
  · exact .inl ⟨rfl, rfl⟩
  · exact atMostOneEmission_readBusy (hr _)
  · exact atMostOneEmission_readBusy ⟨rfl, rfl⟩
  · exact atMostOneEmission_readBusy ⟨rfl, rfl⟩
  · exact atMostOneEmission_emit ..
  · exact .inl ⟨rfl, rfl⟩
  · exact .inl ⟨rfl, rfl⟩

theorem dispatchPowerUp_silent (s : State) : Silent s (dispatchPowerUp s) := by
  unfold dispatchPowerUp
  split <;> exact ⟨rfl, rfl⟩

theorem dispatchPowerDown_silent (s : State) : Silent s (dispatchPowerDown s) := by
  unfold dispatchPowerDown
  split <;> exact ⟨rfl, rfl⟩

theorem validateUpdate_silent (s : State) : Silent s (validateUpdate s) := by
  unfold validateUpdate
  split
  · exact ⟨rfl, rfl⟩
  · split <;> exact ⟨rfl, rfl⟩

theorem nextRow_silent (s : State) : Silent s (nextRow s) := by
  unfold nextRow
  split <;> exact ⟨rfl, rfl⟩

theorem endPass_silent (s : State) : Silent s (endPass s) := by
  unfold endPass
  split
  · exact ⟨rfl, rfl⟩
  · split <;> exact ⟨rfl, rfl⟩

theorem endHandshake_silent (s : State) : Silent s (endHandshake s) := by
  unfold endHandshake
  split <;> exact ⟨rfl, rfl⟩

theorem commonStep_silent {s t : State} (h : commonStep s = .next t) : Silent s t := by
  unfold commonStep at h
  split at h <;> cases h
  exact ⟨rfl, rfl⟩

theorem reservedStep_silent {s t : State} (h : reservedStep s = .next t) : Silent s t := by
  unfold reservedStep at h
  split at h
  · cases h
    exact ⟨rfl, rfl⟩
  · exact commonStep_silent h

theorem powerUpStep_atMostOneEmission {s t : State} (h : powerUpStep s = .next t) : AtMostOneEmission s t := by
  unfold powerUpStep at h
  split at h
  · cases h; exact .inl (dispatchPowerUp_silent s)
  · cases h; exact runList_atMostOneEmission ⟨rfl, rfl⟩ ..
  · cases h; exact .inl ⟨rfl, rfl⟩
  · cases h; exact runList_atMostOneEmission ⟨rfl, rfl⟩ ..
  · exact .inl (commonStep_silent h)

theorem powerDownStep_atMostOneEmission {s t : State} (h : powerDownStep s = .next t) : AtMostOneEmission s t := by
  unfold powerDownStep at h
  split at h
  · cases h; exact .inl (dispatchPowerDown_silent s)
  · cases h; exact runList_atMostOneEmission ⟨rfl, rfl⟩ ..
  · exact .inl (commonStep_silent h)

theorem updateStep_atMostOneEmission {s t : State} (h : updateStep s = .next t) : AtMostOneEmission s t := by
  unfold updateStep at h
  cases hpc : s.pc <;> rw [hpc] at h
  case dispatch => cases h; exact .inl (validateUpdate_silent s)
  case latch => cases h; exact .inl ⟨rfl, rfl⟩
  case stageStart => cases h; exact .inl ⟨rfl, rfl⟩
  case row =>
    simp only at h
    split at h <;> cases h
    exact .inl (goto_silent ..)
  case fetch b => cases h; exact .inr (.inr ⟨rfl, _, rfl⟩)
  case encode =>
    simp only at h
    split at h <;> cases h
    exact .inl ⟨rfl, rfl⟩
  case line ev => cases h; exact runFrame_atMostOneEmission (goto_silent ..) ..
  case wait w => cases h; exact busyWait_atMostOneEmission nextRow_silent ..
  case passEnd => cases h; exact .inl (endPass_silent s)
  case handshake ev => cases h; exact runFrame_atMostOneEmission (endHandshake_silent s) ..
  case settle ev => cases h; exact runFrame_atMostOneEmission (goto_silent ..) ..
  case settleWait w => cases h; exact busyWait_atMostOneEmission (fun u => goto_silent u _) ..
  case idle | pd | pu | puStart | complete => exact .inl (commonStep_silent h)

/-- A running command emits at most one event or one read in a step. -/
theorem exec_running_atMostOneEmission {i : Instr} {s t : State} (hb : s.busy = true) (h : exec i s = .next t) :
    AtMostOneEmission s t := by
  cases i with
  | nop x => cases h; exact .inl ⟨rfl, rfl⟩
  | powerUp x => exact powerUpStep_atMostOneEmission (exec_powerUp_running hb x ▸ h)
  | powerDown x => exact powerDownStep_atMostOneEmission (exec_powerDown_running hb x ▸ h)
  | updateFull temp r => exact updateStep_atMostOneEmission (exec_updateFull_running hb temp r ▸ h)
  | updatePartial temp r => exact updateStep_atMostOneEmission (exec_updatePartial_running hb temp r ▸ h)
  | reserved4to7 op x => exact .inl (reservedStep_silent (exec_reserved4to7_running hb op x ▸ h))
  | reserved8toF op x => exact .inl (reservedStep_silent (exec_reserved8toF_running hb op x ▸ h))

/-- What issuing a command to an idle engine gives: the state itself for NOP (R91), else its acceptance (R87). -/
theorem exec_idle {s : State} (hb : s.busy = false) (i : Instr) :
    exec i s = .next s ∨ exec i s = .next (accept (encode i) s) := by
  cases i with
  | nop x => exact .inl rfl
  | powerUp x => exact .inr (command_idle hb ..)
  | powerDown x => exact .inr (command_idle hb ..)
  | updateFull temp r => exact .inr (command_idle hb ..)
  | updatePartial temp r => exact .inr (command_idle hb ..)
  | reserved4to7 op x => exact .inr (command_idle hb ..)
  | reserved8toF op x => exact .inr (command_idle hb ..)

theorem exec_idle_silent {i : Instr} {s t : State} (hb : s.busy = false) (h : exec i s = .next t) : Silent s t := by
  rcases exec_idle hb i with e | e
  · cases e.symm.trans h
    exact ⟨rfl, rfl⟩
  · cases e.symm.trans h
    exact ⟨rfl, rfl⟩

theorem hostWrite_silent {off : Nat} {v : Word} {s t : State} (h : hostWrite off v s = .next t) : Silent s t := by
  rcases hostWrite_cases h with ⟨-, hb, he⟩ | rfl | rfl | rfl | rfl | rfl | rfl
  · exact exec_idle_silent hb he
  all_goals exact ⟨rfl, rfl⟩

theorem hostTurn_silent {s t : State} (h : hostTurn s = .next t) : Silent s t := by
  rcases hostTurn_cases h with rfl | ⟨off, f, u, rfl | ⟨rest, rfl⟩, rfl⟩ | ⟨off, v, rest, hw⟩ | ⟨a, v, rest, rfl⟩
  · exact ⟨rfl, rfl⟩
  · exact ⟨rfl, rfl⟩
  · exact ⟨rfl, rfl⟩
  · exact hostWrite_silent (s := { s with host := rest }) hw
  · exact ⟨rfl, rfl⟩

theorem shortTurn_eq {s t : State} (h : shortTurn s = .next t) : t = s := by
  unfold shortTurn at h
  split at h <;> cases h
  rfl

/-- Every turn but an ENGINE turn of a running command is silent. -/
theorem takeTurn_silent_or_engine {u : Turn} {s t : State} (h : takeTurn u s = .next t) :
    Silent s t ∨ (u = .engine ∧ s.busy = true ∧ AtMostOneEmission s t) := by
  cases u with
  | host => exact .inl (hostTurn_silent h)
  | engine =>
    simp only [takeTurn, engineTurn] at h
    split at h
    · next hb => exact .inr ⟨rfl, hb, exec_running_atMostOneEmission hb h⟩
    · cases h
      exact .inl ⟨rfl, rfl⟩
  | clock => cases h; exact .inl ⟨rfl, rfl⟩
  | rst => cases h; exact .inl ⟨rfl, rfl⟩
  | short => cases shortTurn_eq h; exact .inl ⟨rfl, rfl⟩

/-! ### The obligations -/

/-- Settles O6: the schedule's turn, the refusal, and R11 written out. -/
theorem stepTakesTurn : Obligations.StepTakesTurn :=
  ⟨fun _ _ _ => step_scheduled, fun _ => step_badParameters, params_wf_iff⟩

/-- Settles O53, by cases on the turn: only the ENGINE's step of a running command is not silent. -/
theorem oneEventPerTurn : Obligations.OneEventPerTurn := by
  intro s t u h
  rcases takeTurn_silent_or_engine h with ⟨hev, hrd⟩ | ⟨hu, hb, ⟨hev, hrd⟩ | ⟨hrd, e, hev⟩ | ⟨hev, c, hrd⟩⟩
  · exact ⟨.inl hev, .inl hrd⟩
  · exact ⟨.inl hev, .inl hrd⟩
  · exact ⟨.inr ⟨hu, hb, hrd, e, hev⟩, .inl hrd⟩
  · exact ⟨.inl hev, .inr ⟨hu, hb, hev, c, hrd⟩⟩

/-- Settles O23: at either list the step is the event of that index, or the end of the list's step. -/
theorem sequencerEmits : Obligations.SequencerEmits := by
  constructor
  · intro s x i ev st a hb ha p q hpq hpc
    have hexec : exec (.powerUp x) s = .next ((emit a s).goto q) ∧
        (p = .pd i ev → exec (.powerDown x) s = .next ((emit a s).goto q)) := by
      rw [exec_powerUp_running hb, exec_powerDown_running hb]
      rcases hpq with ⟨rfl, rfl, hst⟩ | ⟨rfl, rfl, hst⟩
      · rw [powerUpStep_pu hpc, runList_emit hst ha]
        exact ⟨rfl, nofun⟩
      · rw [powerUpStep_pd hpc, powerDownStep_pd hpc, runList_emit hst ha, runList_emit hst ha]
        exact ⟨rfl, fun _ => rfl⟩
    obtain ⟨htrace, hframe, hline, hlines⟩ := emit_goto_frame a s q
    obtain ⟨hread, hrx⟩ := emit_rx a s
    obtain ⟨hdelay, hlatch⟩ := emit_delayLatch a s
    exact ⟨_, hexec.1, hexec.2, rfl, htrace, hframe, hline, hlines, hread, hrx, hdelay, hlatch⟩
  · intro s x i ev st hb hev hc hw
    rw [exec_powerUp_running hb, exec_powerDown_running hb]
    constructor
    · intro hpc hst
      rw [powerUpStep_pu hpc, runList_endStep hst hev, endStep_goto hc hw]
      rfl
    · intro hpc hst
      rw [powerUpStep_pd hpc, powerDownStep_pd hpc, runList_endStep hst hev, runList_endStep hst hev,
        endStep_goto hc hw]
      exact ⟨rfl, rfl⟩

/-- Settles O42: every action of the three frames sends a byte or moves CS, so its event changes no more than that. -/
theorem updateFramesEmit : Obligations.UpdateFramesEmit := by
  constructor
  · intro s temp r i ev a hi hb hframe
    rw [exec_update_running hb hi]
    have hstep : ∃ p, updateStep s = .next ((emit a s).goto p) ∧ a.writesOrMovesCs ∧
        (s.pc = .line ev → p = .line (ev + 1)) ∧ (s.pc = .handshake ev → p = .handshake (ev + 1)) ∧
        (s.pc = .settle ev → p = .settle (ev + 1)) := by
      rcases hframe with ⟨hpc, ha⟩ | ⟨hpc, ha⟩ | ⟨hpc, ha⟩
      · rw [updateStep_line hpc, runFrame_emit ha]
        exact ⟨_, rfl, lineTx_writesOrMovesCs _ _ a (List.mem_of_getElem? ha), by simp [hpc]⟩
      · rw [updateStep_handshake hpc, runFrame_emit ha]
        exact ⟨_, rfl, regWrite_writesOrMovesCs _ _ _ a (List.mem_of_getElem? ha), by simp [hpc]⟩
      · rw [updateStep_settle hpc, runFrame_emit ha]
        exact ⟨_, rfl, lineTx_writesOrMovesCs _ _ a (List.mem_of_getElem? ha), by simp [hpc]⟩
    obtain ⟨p, hnext, ha, hpcs⟩ := hstep
    obtain ⟨hchange, hcs⟩ := emit_goto_writesOrMovesCs ha s p
    exact ⟨_, hnext, (emit_goto_frame a s p).1, hchange, hcs, hpcs⟩
  · intro s temp r i ev hi hb
    rw [exec_update_running hb hi]
    constructor
    · intro hpc hev
      rw [updateStep_line hpc, runFrame_done (List.getElem?_eq_none hev)]
      rfl
    · intro hpc hev
      rw [updateStep_settle hpc, runFrame_done (List.getElem?_eq_none hev)]
      rfl

end Sys2Proof.Machine

end

section
/-! O3, O7, O9, O14: the byte decoder, the HOST's turns by its next operation, and the step of a placed command. -/

namespace Sys2Proof

/-! ### Byte lanes (R53, R76) -/

/-- The four byte lanes of a word put together are the word (R53). -/
theorem bytesWord_lanes (w : Word) :
    bytesWord (w.extractLsb' 0 8) (w.extractLsb' 8 8) (w.extractLsb' 16 8) (w.extractLsb' 24 8) = w := by
  unfold bytesWord
  rw [BitVec.extractLsb'_append_extractLsb'_eq_extractLsb' (by decide),
    BitVec.extractLsb'_append_extractLsb'_eq_extractLsb' (by decide),
    BitVec.extractLsb'_append_extractLsb'_eq_extractLsb' (by decide)]
  exact BitVec.extractLsb'_eq_self

theorem decodeBytes_wordBytes (w : Word) (rest : List Byte) :
    decodeBytes (wordBytes w ++ rest) = .ok (decodeWord w, rest) := by
  simp [wordBytes, decodeBytes, bytesWord_lanes]

theorem decodeBytes_truncated {l : List Byte} (h : l.length < 4) : decodeBytes l = .error .truncated := by
  match l with
  | [] | [_] | [_, _] | [_, _, _] => rfl
  | _ :: _ :: _ :: _ :: rest => simp at h; omega

end Sys2Proof

namespace Sys2Proof.Machine

/-! ### The HOST's turn, by its next operation (R52, R86) -/

theorem accessOk_iff (off bytes : Nat) : accessOk off bytes = true ↔ bytes = 4 ∧ off % 4 = 0 ∧ off < 64 := by
  simp [accessOk, and_assoc]

section HostTurn

variable {s : State} {off bytes : Nat} {v : Word} {ops : List HostOp}

theorem hostTurn_nil (h : s.host = []) : hostTurn s = .next s := by
  simp [hostTurn, h]

theorem hostTurn_rd (h : s.host = .rd off bytes :: ops) :
    hostTurn s = if accessOk off bytes then .next (noteHostRead off (fun _ => true) { s with host := ops })
      else .refused .badHostAccess := by
  simp [hostTurn, h]

theorem hostTurn_wr (h : s.host = .wr off bytes v :: ops) :
    hostTurn s = if accessOk off bytes then hostWrite off v { s with host := ops }
      else .refused .badHostAccess := by
  simp [hostTurn, h]

theorem hostTurn_waitIdle (h : s.host = .waitIdle :: ops) :
    hostTurn s = .next (noteHostRead Reg.status.offset (fun _ => true)
      (if s.busy then s else { s with host := ops })) := by
  simp [hostTurn, h]

theorem hostTurn_expect {mask : Word} (h : s.host = .expect off mask v :: ops) :
    hostTurn s = if accessOk off 4 then .next (noteHostRead off (fun w => w &&& mask == v) { s with host := ops })
      else .refused .badHostAccess := by
  simp [hostTurn, h]

theorem hostTurn_memWr {a : Word} {b : Byte} (h : s.host = .memWr a b :: ops) :
    hostTurn s = .next (hostMemWrite a b { s with host := ops }) := by
  simp [hostTurn, h]

end HostTurn

/-- The write of a command word to an idle engine is exec of the word (R87). -/
theorem hostWrite_cmd_idle {s : State} (hb : s.busy = false) (w : Word) :
    hostWrite 0 w s = exec (decodeWord w) s := by
  simp [hostWrite, regAt, writeReg, cmdWrite, hb]

/-- A CMD write always answers a next state (R87). -/
theorem cmdWrite_next (w : Word) (s : State) : ∃ t, cmdWrite w s = .next t := by
  unfold cmdWrite
  split
  · exact ⟨_, rfl⟩
  · next hb => rcases exec_idle (Bool.not_eq_true _ ▸ hb) (decodeWord w) with e | e <;> exact ⟨_, e⟩

/-- Every write to the window answers a next state (R22, R87). -/
theorem hostWrite_next (off : Nat) (v : Word) (s : State) : ∃ t, hostWrite off v s = .next t := by
  unfold hostWrite
  cases regAt off with
  | none => exact ⟨_, rfl⟩
  | some r =>
    cases r with
    | cmd => exact cmdWrite_next v s
    | status | result | fbBase | fbLen | busyTimeout | lastTemp | stageMs | stRaw => exact ⟨_, rfl⟩

/-- A step in which the HOST writes a word to CMD of an idle engine is exec of the word (R51, R87). -/
theorem step_cmdWrite {s : State} {w : Word} {rest : List Turn} {ops : List HostOp} (hp : s.par.wf = true)
    (ht : s.turns = .host :: rest) (hh : s.host = .wr 0 4 w :: ops) (hb : s.busy = false) :
    step s = exec (decodeWord w) { s with turns := rest, host := ops } := by
  rw [step_scheduled hp ht, takeTurn, hostTurn_wr (s := { s with turns := rest }) hh, if_pos (by decide)]
  exact hostWrite_cmd_idle (s := { s with turns := rest, host := ops }) hb w

theorem withFetchWord_toNat (s : State) (w : Word) : s.withFetchWord 32 w.toNat = placeCommand w s := by
  simp [State.withFetchWord, Nat.mod_eq_of_lt w.isLt]

/-! ### The obligations -/

/-- Settles O3: the lanes of a word put together are the word, and only lists of four bytes and more decode. -/
theorem bytesDecode : Obligations.BytesDecode :=
  ⟨decodeBytes_wordBytes, fun _ => decodeBytes_truncated⟩

/-- Settles O7. -/
theorem stepRunsIssuedWord : Obligations.StepRunsIssuedWord :=
  fun _ _ _ _ => step_cmdWrite

/-- Settles O9: placement makes the next turn the HOST's CMD write to an idle engine. -/
theorem stepRunsPlacedWord : Obligations.StepRunsPlacedWord := by
  intro s w hp
  rw [withFetchWord_toNat, step_cmdWrite (s := placeCommand w s) hp rfl rfl rfl]
  rfl

/-- Settles O14: the window's test decides RD, WR and EXPECT alike, and a write it lets through always answers. -/
theorem oddAccessRefused : Obligations.OddAccessRefused := by
  simp only [Obligations.OddAccessRefused, ← accessOk_iff]
  refine ⟨?_, ?_, ?_⟩
  · rintro s off bytes v ops hbad (h | h)
    · rw [hostTurn_rd h, if_neg hbad]
    · rw [hostTurn_wr h, if_neg hbad]
  · rintro s off bytes v ops hok (h | h)
    · rw [hostTurn_rd h, if_pos hok]
      nofun
    · obtain ⟨t, ht⟩ := hostWrite_next off v { s with host := ops }
      rw [hostTurn_wr h, if_pos hok, ht]
      nofun
  · intro s off mask v ops h
    rw [hostTurn_expect h]
    by_cases hok : off % 4 = 0 ∧ off < 64 <;> simp [accessOk, hok]

end Sys2Proof.Machine

end

section
/-! O33, O34, O35: what a frame-buffer read takes and returns, what one ENGINE step can do, and what it never writes. -/

namespace Sys2Proof.Machine

/-! ### Reading the row (R57, R106) -/

theorem updateStep_fetch {s : State} {b : Nat} (h : s.pc = .fetch b) : updateStep s = .next (fetchByte b s) := by
  simp [updateStep, h]

/-- A row's byte address wraps modulo 2^32 (R57). -/
theorem fbAddr_toNat (base : Word) (r : BitVec 8) (b : Nat) :
    (fbAddr base r b).toNat = (base.toNat + 33 * r.toNat + b) % 2 ^ 32 := by
  simp only [fbAddr, BitVec.toNat_add, BitVec.toNat_ofNat]
  omega

/-- The byte read stands in S[b], and S is as before at every other index (R106). -/
theorem fetchByte_rowBuf {b : Nat} (hb : b ≤ 32) (s : State) :
    (fetchByte b s).rowBuf[b]? = some (memByte s (fbAddr s.upd.fbBaseL s.upd.r b)) ∧
      ∀ j, j ≠ b → (fetchByte b s).rowBuf[j]? = s.rowBuf[j]? := by
  have hlt : b < 33 := by omega
  refine ⟨?_, fun j hj => ?_⟩
  · simp [fetchByte, hlt]
  · simp [fetchByte, hj.symm]

/-! ### What a read may return (R56, R72) -/

/-- With no host write to the address since the CMD write, memory's byte is all that is admitted. -/
theorem admitted_unraced {s : State} {a : Nat} (h : ∀ e ∈ s.race, e.1 ≠ a) : admitted s a = [s.mem.read a] := by
  have hnone : s.race.filter (fun e => e.1 == a) = [] := by simpa using h
  simp [admitted, hnone]

theorem chosen_mem_admitted (s : State) (a : Nat) : chosen s a ∈ admitted s a := by
  have hlt : Config.freePick s.draws % (admitted s a).length < (admitted s a).length :=
    Nat.mod_lt _ (by simp [admitted])
  unfold chosen
  split
  · next h => simp [h]
  · simp [List.getElem?_eq_getElem hlt]

theorem memByte_unraced {s : State} {a : Word} {v : Byte} (hv : s.mem.read a.toNat = some v)
    (h : ∀ e ∈ s.race, e.1 ≠ a.toNat) : memByte s a = v := by
  simp [memByte, chosen, admitted_unraced h, hv]

/-- A read returns an admitted byte, or the address was not backed at some time since the CMD write. -/
theorem memByte_admitted (s : State) (a : Word) :
    some (memByte s a) ∈ admitted s a.toNat ∨ none ∈ admitted s a.toNat := by
  have hmem := chosen_mem_admitted s a.toNat
  unfold memByte
  cases hc : chosen s a.toNat with
  | some v => exact .inl (hc ▸ hmem)
  | none => exact .inr (hc ▸ hmem)

theorem admitted_hostMemWrite_running {s : State} (hb : s.busy = true) (a : Word) (v : Byte) :
    admitted (hostMemWrite a v s) a.toNat = some v :: admitted s a.toNat := by
  simp [admitted, hb, Memory.read_write_same]

/-- Every command but NOP is accepted by an idle engine (R87). -/
theorem exec_accept {s : State} (hb : s.busy = false) {i : Instr} (hi : ∀ x, i ≠ .nop x) :
    exec i s = .next (accept (encode i) s) := by
  cases i with
  | nop x => exact absurd rfl (hi x)
  | powerUp | powerDown | updateFull | updatePartial | reserved4to7 | reserved8toF => exact command_idle hb ..

theorem decodeWord_ne_nop {w : Word} (hw : opField w ≠ 0) (x : BitVec 28) : decodeWord w ≠ .nop x := by
  unfold decodeWord
  rw [if_neg hw]
  repeat' split
  all_goals nofun

/-! ### The ENGINE's turn, by the OP of the command in flight (R81, R88) -/

/-- The ENGINE steps of the command with this OP. -/
def opStep (op : BitVec 4) (s : State) : Result :=
  if op = 0 then .next s
  else if op = 1 then powerUpStep s
  else if op = 2 then powerDownStep s
  else if op = 3 then updateStep s
  else reservedStep s

theorem engineTurn_idle {s : State} (hb : s.busy = false) : engineTurn s = .next s := by
  simp [engineTurn, hb]

theorem engineTurn_running {s : State} (hb : s.busy = true) : engineTurn s = opStep s.cur.op s := by
  rw [engineTurn, if_pos hb, Cur.instr, decodeWord, opField_curWord, opStep]
  split_ifs
  · rfl
  · exact exec_powerUp_running hb _
  · exact exec_powerDown_running hb _
  · exact exec_updateFull_running hb _ _
  · exact exec_updatePartial_running hb _ _
  · exact exec_reserved4to7_running hb _ _
  · exact exec_reserved8toF_running hb _ _

section ByOp

variable {s : State} (hb : s.busy = true)
include hb

theorem engineTurn_powerUp (hop : s.cur.op = 1) : engineTurn s = powerUpStep s := by
  simp [engineTurn_running hb, opStep, hop]

theorem engineTurn_powerDown (hop : s.cur.op = 2) : engineTurn s = powerDownStep s := by
  simp [engineTurn_running hb, opStep, hop]

theorem engineTurn_update (hop : s.cur.op = 3) : engineTurn s = updateStep s := by
  simp [engineTurn_running hb, opStep, hop]

end ByOp

/-! ### What one step of a running command can do (R14, R88) -/

/-- The moves of a running command: what one ENGINE step makes of the state. -/
inductive EngineMove (s : State) : State → Prop where
  | stay : EngineMove s s
  | goto (p : Pc) : EngineMove s (s.goto p)
  | emit (a : Act) (p : Pc) : EngineMove s ((emit a s).goto p)
  | complete (kind : Kind) (check : BitVec 2) (stage : BitVec 4) (line : BitVec 8) :
    EngineMove s (complete kind check stage line s)
  | evalCheck (c : Check) (next : Pc) : EngineMove s (evalCheck c next s)
  | startPowerUp : EngineMove s (startPowerUp s)
  | startPowerDown : EngineMove s (startPowerDown s)
  | endPowerUp : EngineMove s (endPowerUp s)
  | endPowerDown (next : Pc) : EngineMove s (endPowerDown next s)
  | latch : s.pc = .latch → EngineMove s (latchUpdate s)
  | stageStart : s.pc = .stageStart → EngineMove s (startStage s)
  | fetch (b : Nat) : s.pc = .fetch b → EngineMove s (fetchByte b s)
  | encode (k : StageKind) : s.pc = .encode → EngineMove s (buildLine k s)
  | waitStart (p : Pc) : EngineMove s { s with upd := { s.upd with tWait0 := s.now }, pc := p }
  | sampleFault (stage : BitVec 4) (line : BitVec 8) :
    EngineMove s (faultSession .commTimeout 0 stage line (emitReadBusy s))
  | sampleGoto (p : Pc) : EngineMove s ((emitReadBusy s).goto p)
  | sampleNextRow : EngineMove s (nextRow (emitReadBusy s))
  | passEnd : s.pc = .passEnd → EngineMove s (endPass s)

theorem runFrame_move {done : State → State} {s : State} (hd : EngineMove s (done s)) (acts : List Act) (ev : Nat)
    (at_ : Nat → Pc) : EngineMove s (runFrame acts ev at_ done s) := by
  rcases runFrame_cases acts ev at_ done s with ⟨a, -, e⟩ | ⟨-, e⟩ <;> rw [e]
  · exact .emit ..
  · exact hd

theorem endStep_move (st : SeqStep) (next : Pc) (s : State) : EngineMove s (endStep st next s) := by
  rcases endStep_cases st next s with e | ⟨n, -, -, e⟩ | ⟨c, -, e⟩ <;> rw [e]
  · exact .goto _
  · exact .stay
  · exact .evalCheck ..

theorem runList_move {done : State → State} {s : State} (hd : EngineMove s (done s)) (l : List SeqStep)
    (at_ : Nat → Nat → Pc) (i ev : Nat) : EngineMove s (runList l at_ done i ev s) := by
  rcases runList_cases l at_ done i ev s with ⟨st, a, -, -, e⟩ | ⟨st, -, -, e⟩ | ⟨-, e⟩ <;> rw [e]
  · exact .emit ..
  · exact endStep_move ..
  · exact hd

theorem busyWait_move {ret : State → State} {s : State} (hr : EngineMove s (ret (emitReadBusy s))) (stage : BitVec 4)
    (line : BitVec 8) (at_ : WaitPhase → Pc) (w : WaitPhase) : EngineMove s (busyWait stage line at_ ret w s) := by
  rcases busyWait_cases stage line at_ ret w s with
    ⟨-, e⟩ | ⟨-, -, e⟩ | ⟨-, -, -, e⟩ | ⟨-, -, -, e⟩ | ⟨-, e⟩ | ⟨-, -, e⟩ | ⟨-, -, e⟩ <;> rw [e]
  · exact .waitStart _
  · exact hr
  · exact .sampleFault ..
  · exact .sampleGoto _
  · exact .emit ..
  · exact .stay
  · exact .goto _

theorem commonStep_move {s t : State} (h : commonStep s = .next t) : EngineMove s t := by
  unfold commonStep at h
  split at h <;> cases h
  exact .complete ..

theorem reservedStep_move {s t : State} (h : reservedStep s = .next t) : EngineMove s t := by
  unfold reservedStep at h
  split at h
  · cases h; exact .complete ..
  · exact commonStep_move h

theorem dispatchPowerUp_move (s : State) : EngineMove s (dispatchPowerUp s) := by
  unfold dispatchPowerUp
  split
  · exact .startPowerUp
  · exact .startPowerDown
  all_goals exact .complete ..

theorem powerUpStep_move {s t : State} (h : powerUpStep s = .next t) : EngineMove s t := by
  unfold powerUpStep at h
  split at h
  · cases h; exact dispatchPowerUp_move s
  · cases h; exact runList_move (.endPowerDown _) ..
  · cases h; exact .startPowerUp
  · cases h; exact runList_move .endPowerUp ..
  · exact commonStep_move h

theorem dispatchPowerDown_move (s : State) : EngineMove s (dispatchPowerDown s) := by
  unfold dispatchPowerDown
  split
  · exact .complete ..
  · exact .startPowerDown

theorem powerDownStep_move {s t : State} (h : powerDownStep s = .next t) : EngineMove s t := by
  unfold powerDownStep at h
  split at h
  · cases h; exact dispatchPowerDown_move s
  · cases h; exact runList_move (.endPowerDown _) ..
  · exact commonStep_move h

theorem validateUpdate_move (s : State) : EngineMove s (validateUpdate s) := by
  unfold validateUpdate
  split
  · exact .complete ..
  · split
    · exact .complete ..
    · exact .goto _

theorem endHandshake_move (s : State) : EngineMove s (endHandshake s) := by
  unfold endHandshake
  split <;> exact .goto _

theorem updateStep_move {s t : State} (h : updateStep s = .next t) : EngineMove s t := by
  unfold updateStep at h
  cases hpc : s.pc <;> rw [hpc] at h
  case dispatch => cases h; exact validateUpdate_move s
  case latch => cases h; exact .latch hpc
  case stageStart => cases h; exact .stageStart hpc
  case row =>
    simp only at h
    split at h <;> cases h
    exact .goto _
  case fetch b => cases h; exact .fetch b hpc
  case encode =>
    simp only at h
    split at h <;> cases h
    exact .encode _ hpc
  case line ev => cases h; exact runFrame_move (.goto _) ..
  case wait w => cases h; exact busyWait_move .sampleNextRow ..
  case passEnd => cases h; exact .passEnd hpc
  case handshake ev => cases h; exact runFrame_move (endHandshake_move s) ..
  case settle ev => cases h; exact runFrame_move (.goto _) ..
  case settleWait w => cases h; exact busyWait_move (.sampleGoto _) ..
  case idle | pd | pu | puStart | complete => exact commonStep_move h

/-- Every step of a running command is one of the engine's moves. -/
theorem exec_running_move {i : Instr} {s t : State} (hb : s.busy = true) (h : exec i s = .next t) :
    EngineMove s t := by
  cases i with
  | nop x => cases h; exact .stay
  | powerUp x => exact powerUpStep_move (exec_powerUp_running hb x ▸ h)
  | powerDown x => exact powerDownStep_move (exec_powerDown_running hb x ▸ h)
  | updateFull temp r => exact updateStep_move (exec_updateFull_running hb temp r ▸ h)
  | updatePartial temp r => exact updateStep_move (exec_updatePartial_running hb temp r ▸ h)
  | reserved4to7 op x => exact reservedStep_move (exec_reserved4to7_running hb op x ▸ h)
  | reserved8toF op x => exact reservedStep_move (exec_reserved8toF_running hb op x ▸ h)

theorem engineTurn_move {s t : State} (h : engineTurn s = .next t) : EngineMove s t := by
  unfold engineTurn at h
  split at h
  · next hb => exact exec_running_move hb h
  · cases h; exact .stay

/-! ### What no ENGINE step writes (R14, R44, R49, R71) -/

/-- What belongs to the agents around the engine, or stays fixed while a command runs: the parameters, the host
registers, OVERRUN, CUR, NOW, memory, the HOST's program and log, the schedule. -/
structure Surroundings where
  par : Params
  fbBase : Word
  fbLen : Word
  busyTimeout : Word
  overrun : Bool
  cur : Cur
  now : Word
  mem : Memory
  host : List HostOp
  hostLog : List HostObs
  turns : List Turn

def State.surroundings (s : State) : Surroundings :=
  ⟨s.par, s.fbBase, s.fbLen, s.busyTimeout, s.overrun, s.cur, s.now, s.mem, s.host, s.hostLog, s.turns⟩

@[simp] theorem emit_surroundings (a : Act) (s : State) : (emit a s).surroundings = s.surroundings := by
  simp [State.surroundings]

@[simp] theorem emitReadBusy_surroundings (s : State) : (emitReadBusy s).surroundings = s.surroundings := by
  simp [State.surroundings]

@[simp] theorem evalCheck_surroundings (c : Check) (next : Pc) (s : State) :
    (evalCheck c next s).surroundings = s.surroundings := by
  rcases evalCheck_cases c next s with ⟨-, e⟩ | ⟨-, e⟩ <;> rw [e] <;> rfl

@[simp] theorem nextRow_surroundings (s : State) : (nextRow s).surroundings = s.surroundings := by
  unfold nextRow
  split <;> rfl

@[simp] theorem endPass_surroundings (s : State) : (endPass s).surroundings = s.surroundings := by
  unfold endPass
  split
  · rfl
  · split <;> rfl

/-- No move of the engine writes its surroundings. -/
theorem EngineMove.surroundings {s t : State} (h : EngineMove s t) : t.surroundings = s.surroundings := by
  cases h with
  | emit a p => exact emit_surroundings a s
  | evalCheck c next => exact evalCheck_surroundings c next s
  | sampleFault | sampleGoto => exact emitReadBusy_surroundings s
  | sampleNextRow => simp
  | passEnd => exact endPass_surroundings s
  | stay | goto | complete | startPowerUp | startPowerDown | endPowerUp | endPowerDown | latch | stageStart | fetch
  | encode | waitStart => rfl

/-! ### Who writes memory (R49) -/

theorem hostWrite_mem {off : Nat} {v : Word} {s t : State} (h : hostWrite off v s = .next t) : t.mem = s.mem := by
  rcases hostWrite_cases h with ⟨-, hb, he⟩ | rfl | rfl | rfl | rfl | rfl | rfl
  · rcases exec_idle hb (decodeWord v) with e | e <;> cases e.symm.trans he <;> rfl
  all_goals rfl

/-- A HOST turn with no memory write next keeps memory. -/
theorem hostTurn_mem {s t : State} (h : hostTurn s = .next t) (hw : ¬ ∃ a v ops, s.host = .memWr a v :: ops) :
    t.mem = s.mem := by
  cases hs : s.host with
  | nil => cases (hostTurn_nil hs).symm.trans h; rfl
  | cons op ops =>
    cases op with
    | rd off bytes =>
      rw [hostTurn_rd hs] at h
      split at h <;> cases h
      rfl
    | wr off bytes v =>
      rw [hostTurn_wr hs] at h
      split at h
      · exact hostWrite_mem (s := { s with host := ops }) h
      · cases h
    | waitIdle =>
      cases (hostTurn_waitIdle hs).symm.trans h
      cases s.busy <;> rfl
    | expect off mask v =>
      rw [hostTurn_expect hs] at h
      split at h <;> cases h
      rfl
    | memWr a v => exact absurd ⟨a, v, ops, hs⟩ hw

theorem takeTurn_mem {u : Turn} {s t : State} (h : takeTurn u s = .next t)
    (hw : ¬ (u = .host ∧ ∃ a v ops, s.host = .memWr a v :: ops)) : t.mem = s.mem := by
  cases u with
  | host => exact hostTurn_mem h fun hops => hw ⟨rfl, hops⟩
  | engine => exact congrArg Surroundings.mem (engineTurn_move h).surroundings
  | clock => cases h; rfl
  | rst => cases h; rfl
  | short => cases shortTurn_eq h; rfl

/-! ### The obligations -/

/-- Settles O33. -/
theorem rowIsFetched : Obligations.RowIsFetched := by
  intro s temp r b i hi hb hpc hb32
  obtain ⟨hread, hother⟩ := fetchByte_rowBuf hb32 s
  refine ⟨fetchByte b s, ?_, ?_, hread, hother, rfl, rfl⟩
  · rw [exec_update_running hb hi, updateStep_fetch hpc]
  · rw [← fbAddr_toNat]
    rfl

/-- Settles O34: a read takes an admitted byte, and the record of the race starts empty at acceptance. -/
theorem readsAreAdmitted : Obligations.ReadsAreAdmitted := by
  refine ⟨fun _ _ _ => memByte_unraced, memByte_admitted, fun _ a v hb => admitted_hostMemWrite_running hb a v,
    ?_, ?_, fun _ _ _ _ => hostTurn_memWr⟩
  · intro s w hb hw
    exact ⟨_, exec_accept hb (decodeWord_ne_nop hw), rfl, fun a v hv => memByte_unraced hv nofun⟩
  · intro s a v hb
    simp [hb]

/-- Settles O35, by cases on the turn; what the HOST writes is read back by the laws of memory. -/
theorem onlyTheHostWritesMemory : Obligations.OnlyTheHostWritesMemory :=
  ⟨fun _ _ _ => takeTurn_mem, fun s a v _ h =>
    ⟨_, hostTurn_memWr h, Memory.read_write_same s.mem a.toNat v, fun b => Memory.read_write_other s.mem a.toNat b v⟩⟩

end Sys2Proof.Machine

end

section
/-! O41, O45: the wire frames counted, and the hold of a delay. -/

namespace Sys2Proof.Machine

/-! ### The wire frames counted (R65 to R68) -/

/-- The actions of a kind in a line are those around its bytes, those of its bytes, and those of its commit write. -/
theorem countP_lineTx (f : Act → Bool) (p : Params) (l : List Byte) :
    (lineTx p l).countP f = (lineHead p).countP f + l.countP (f ∘ Act.write) + [Act.setLine .cs false].countP f +
      (commitActs p).countP f := by
  rw [lineTx, List.countP_append, List.countP_append, List.countP_append, List.countP_map]

theorem csAfter_lineTx (p : Params) (l : List Byte) (c : Bool) : csAfter (lineTx p l) c = false := by
  simp only [lineTx, csAfter_append, csAfter_writes]
  unfold commitActs
  split <;> rfl

/-! ### The hold of a delay (R43, R64) -/

theorem runTurns_clock (m : Nat) (s : State) :
    runTurns (List.replicate m .clock) s = .next { s with now := s.now + BitVec.ofNat 32 m } := by
  induction m generalizing s with
  | zero => simp [runTurns]
  | succ m ih =>
    have hnow : (clockTick s).now + BitVec.ofNat 32 m = s.now + BitVec.ofNat 32 (m + 1) := by
      rw [clockTick_now, BitVec.add_assoc, Nat.add_comm m 1, BitVec.ofNat_add]
      rfl
    calc runTurns (List.replicate (m + 1) .clock) s
        = runTurns (List.replicate m .clock) (clockTick s) := rfl
      _ = .next { s with now := s.now + BitVec.ofNat 32 (m + 1) } := by rw [ih, hnow]; rfl

/-- m milliseconds after its event a delay holds exactly when m is less than its length. -/
theorem held_iff_lt {s : State} {m : Nat} (hnow : s.now = s.tDelay0 + BitVec.ofNat 32 m) (hm : m ≤ s.nDelay.toNat) :
    held s = true ↔ m < s.nDelay.toNat := by
  have helapsed : elapsed s.now s.tDelay0 = BitVec.ofNat 32 m := by
    rw [elapsed, hnow, BitVec.add_comm, BitVec.add_sub_cancel]
  have hlt : m < 4294967296 := Nat.lt_of_le_of_lt hm s.nDelay.isLt
  simp [held, helapsed, Nat.mod_eq_of_lt hlt]

section Held

variable {s : State} (hheld : held s = true)
include hheld

theorem runList_held {l : List SeqStep} {i ev : Nat} {n : Word} (hst : l[i - 1]? = some (.wait n)) (hev : 1 ≤ ev)
    (at_ : Nat → Nat → Pc) (done : State → State) : runList l at_ done i ev s = s := by
  rw [runList_endStep hst hev]
  simp [endStep, hheld]

theorem busyWait_held (stage : BitVec 4) (line : BitVec 8) (at_ : WaitPhase → Pc) (ret : State → State) :
    busyWait stage line at_ ret .hold s = s := by
  simp [busyWait, hheld]

end Held

/-! ### The obligations -/

/-- Settles O41: a line's counts are those of its parts, and its bytes are 111 exchanges. -/
theorem frameCounts : Obligations.FrameCounts := by
  refine ⟨fun p idx val l => ⟨rfl, rfl, rfl⟩, fun p idx val l hl => ⟨⟨rfl, rfl⟩, ⟨rfl, rfl⟩, ?_, ?_,
    fun c => ⟨rfl, rfl, csAfter_lineTx p l c⟩⟩⟩
  · intro hc
    have hcommit : commitActs p = [] := by rw [commitActs, hc]
    constructor <;> simp [countP_lineTx, hcommit, lineHead, Function.comp_def, hl]
  · intro hc
    obtain ⟨⟨i, v⟩, hiv⟩ := Option.ne_none_iff_exists'.1 hc
    have hcommit : commitActs p = regWrite p i v := by rw [commitActs, hiv]
    constructor <;> simp [countP_lineTx, hcommit, lineHead, regWrite, Function.comp_def, hl]

/-- Settles O45: after m CLOCK turns the elapsed time is m; and each position that holds returns the state. -/
theorem delayHolds : Obligations.DelayHolds := by
  refine ⟨fun s n => ⟨rfl, rfl, rfl⟩, fun s n m hm => ⟨_, runTurns_clock m _, by simp, held_iff_lt rfl hm⟩, ?_⟩
  rintro s i ev n hb hheld (⟨hop, hpc, hev, hst⟩ | ⟨hop | hop, hpc, hev, hst⟩ | ⟨hop, settle, hpc⟩)
  · rw [engineTurn_powerUp hb hop, powerUpStep_pu hpc, runList_held hheld hst hev]
  · rw [engineTurn_powerUp hb hop, powerUpStep_pd hpc, runList_held hheld hst hev]
  · rw [engineTurn_powerDown hb hop, powerDownStep_pd hpc, runList_held hheld hst hev]
  · rw [engineTurn_update hb hop, updateStep_wait hpc, busyWait_held hheld, busyWait_held hheld, ite_self]

end Sys2Proof.Machine

end

section
/-! O51: at every position of the invariant the engine has a step, and only the environment stops the machine. -/

namespace Sys2Proof.Machine

/-! ### The engine's steps answer (R69, R88) -/

theorem opStep_dispatch {s : State} (hpc : s.pc = .dispatch) (op : BitVec 4) : ∃ t, opStep op s = .next t := by
  unfold opStep
  split_ifs <;> simp [powerUpStep, powerDownStep, updateStep, reservedStep, hpc]

theorem opStep_complete {s : State} {kind : Kind} {check : BitVec 2} {stage : BitVec 4} {line : BitVec 8}
    (hpc : s.pc = .complete kind check stage line) (op : BitVec 4) : ∃ t, opStep op s = .next t := by
  unfold opStep
  split_ifs <;> simp [powerUpStep, powerDownStep, updateStep, reservedStep, commonStep, hpc]

/-- A stage number in range has an entry in the stage list (R127). -/
theorem currentStage_of_stageOk {s : State} (h : stageOk s = true) : ∃ k, currentStage s = some k := by
  have hlt : s.upd.k.toNat - 1 < (stagesOf s.par s.upd.modeL).length := by
    simp only [stageOk, Bool.and_eq_true, decide_eq_true_eq] at h
    omega
  exact ⟨_, List.getElem?_eq_getElem hlt⟩

/-- An update has a step at each of its positions (R128). -/
theorem updateStep_next {s : State} (hpc : isUpdatePc s.pc = true) (hloop : LoopInv s) :
    ∃ t, updateStep s = .next t := by
  have hstage (h : s.pc = .row ∨ s.pc = .encode) : ∃ k, currentStage s = some k := by
    apply currentStage_of_stageOk
    rcases h with h | h <;> simp only [LoopInv, loopFits, h, Bool.and_eq_true] at hloop <;> exact hloop.1
  cases h : s.pc <;> simp only [updateStep, h]
  case row =>
    obtain ⟨k, hk⟩ := hstage (.inl h)
    simp [hk]
  case encode =>
    obtain ⟨k, hk⟩ := hstage (.inr h)
    simp [hk]
  case idle | dispatch | pd | pu | puStart | complete => simp [isUpdatePc, h] at hpc
  all_goals exact ⟨_, rfl⟩

/-- In every state of the invariant an ENGINE turn answers a next state (R69, R90). -/
theorem Inv.engineTurn_next {s : State} (h : Inv s) : ∃ t, engineTurn s = .next t := by
  cases hb : s.busy with
  | false => exact ⟨s, engineTurn_idle hb⟩
  | true =>
    have hupdate (hp : isUpdatePc s.pc = true) (hop : s.cur.op = 3) : ∃ t, engineTurn s = .next t := by
      rw [engineTurn_update hb hop]
      exact updateStep_next hp h.loop
    have hpos := h.position
    unfold PositionInv at hpos
    cases hpc : s.pc <;>
      simp only [hpc, positionFits, Bool.and_eq_true, Bool.or_eq_true, beq_iff_eq] at hpos
    case idle => simp [h.busyIff.2 hpc] at hb
    case dispatch =>
      rw [engineTurn_running hb]
      exact opStep_dispatch hpc _
    case complete =>
      rw [engineTurn_running hb]
      exact opStep_complete hpc _
    case pd i ev =>
      obtain ⟨⟨hop | hop, -⟩, -⟩ := hpos
      · exact ⟨_, (engineTurn_powerUp hb hop).trans (powerUpStep_pd hpc)⟩
      · exact ⟨_, (engineTurn_powerDown hb hop).trans (powerDownStep_pd hpc)⟩
    case pu i ev =>
      obtain ⟨⟨hop, -⟩, -⟩ := hpos
      exact ⟨_, (engineTurn_powerUp hb hop).trans (powerUpStep_pu hpc)⟩
    case puStart =>
      obtain ⟨hop, -⟩ := hpos
      exact ⟨startPowerUp s, by simp [engineTurn_powerUp hb hop, powerUpStep, hpc]⟩
    all_goals
      obtain ⟨⟨hp, hop⟩, -⟩ := hpos
      exact hupdate (hpc ▸ hp) hop

/-! ### The stops of a step (R52, R62) -/

theorem Inv.dropTurn {s : State} (h : Inv s) : Inv (dropTurn s) := by
  obtain ⟨hpar, hmem, hbusy, hpos, hloop, hresult, hlines, hrecord, hsession⟩ := h
  rcases dropTurn_cases s with ⟨rest, e⟩ | e <;> rw [e] <;>
    exact ⟨hpar, hmem, hbusy, hpos, hloop, hresult, hlines, hrecord, hsession⟩

/-- A HOST turn answers a next state, or is an access outside the interface (R52). -/
theorem hostTurn_answers (s : State) : (∃ t, hostTurn s = .next t) ∨ hostTurn s = .refused .badHostAccess := by
  cases hs : s.host with
  | nil => exact .inl ⟨_, hostTurn_nil hs⟩
  | cons op ops =>
    cases op with
    | rd off bytes =>
      rw [hostTurn_rd hs]
      cases accessOk off bytes <;> simp
    | wr off bytes v =>
      rw [hostTurn_wr hs]
      cases accessOk off bytes
      · exact .inr rfl
      · exact .inl (hostWrite_next off v _)
    | waitIdle => exact .inl ⟨_, hostTurn_waitIdle hs⟩
    | expect off mask v =>
      rw [hostTurn_expect hs]
      cases accessOk off 4 <;> simp
    | memWr a v => exact .inl ⟨_, hostTurn_memWr hs⟩

/-- A turn from a state of the invariant stops only for the environment (R52, R62). -/
theorem Inv.takeTurn_answers {s : State} (h : Inv s) (u : Turn) :
    (∃ t, takeTurn u s = .next t) ∨ takeTurn u s = .fault .shortWrite ∨ takeTurn u s = .refused .badHostAccess := by
  cases u with
  | host => exact (hostTurn_answers s).imp_right .inr
  | engine => exact .inl h.engineTurn_next
  | clock | rst => exact .inl ⟨_, rfl⟩
  | short =>
    simp only [takeTurn, shortTurn]
    split
    · exact .inr (.inl rfl)
    · exact .inl ⟨_, rfl⟩

/-- Settles O51: every position the invariant admits has a step, and the stops of the other turns are the two named. -/
theorem engineIsNeverStuck : Obligations.EngineIsNeverStuck := by
  intro s h
  have hstep : step s = takeTurn (currentTurn s) (dropTurn s) := by
    rw [step, nextTurn, if_pos h.parameters]
  refine ⟨h.engineTurn_next, ?_, ?_⟩ <;>
    rcases h.dropTurn.takeTurn_answers (currentTurn s) with ⟨t, e⟩ | e | e <;> simp [hstep, e]

end Sys2Proof.Machine

end

section
/-! O56: a running command takes the same ENGINE steps whatever the host registers hold. -/

namespace Sys2Proof.Machine

/-- Values of the registers the HOST may write while a command runs, and of OVERRUN (R22, R24, R71). -/
structure HostRegs where
  fbBase : Word
  fbLen : Word
  busyTimeout : Word
  overrun : Bool

/-- s with these register values. -/
def HostRegs.put (g : HostRegs) (s : State) : State :=
  { s with fbBase := g.fbBase, fbLen := g.fbLen, busyTimeout := g.busyTimeout, overrun := g.overrun }

section Put

variable (g : HostRegs)

/-! ### The shared operations do not see the registers -/

theorem goto_put (p : Pc) : Function.Commute (fun t => t.goto p) g.put := fun _ => rfl

theorem endPowerUp_put : Function.Commute endPowerUp g.put := fun _ => rfl

theorem endPowerDown_put (next : Pc) : Function.Commute (endPowerDown next) g.put := fun _ => rfl

theorem emit_put (a : Act) (s : State) : emit a (g.put s) = g.put (emit a s) := by
  cases a with
  | read tx =>
    simp only [emit, emitRead, HostRegs.put]
    cases s.rxQueue <;> rfl
  | setLine | write | delay => rfl

theorem emitReadBusy_put (s : State) : emitReadBusy (g.put s) = g.put (emitReadBusy s) := by
  simp only [emitReadBusy, HostRegs.put]
  cases s.busyQueue <;> rfl

theorem runFrame_put {done : State → State} (hd : Function.Commute done g.put) (acts : List Act) (ev : Nat)
    (at_ : Nat → Pc) : Function.Commute (runFrame acts ev at_ done) g.put := by
  intro s
  unfold runFrame
  cases acts[ev]? with
  | some a => exact congrArg (fun u => u.goto (at_ (ev + 1))) (emit_put g a s)
  | none => exact hd s

theorem evalCheck_put (c : Check) (next : Pc) (s : State) : evalCheck c next (g.put s) = g.put (evalCheck c next s) := by
  have hrx : (g.put s).rx = s.rx := rfl
  unfold evalCheck
  rw [hrx]
  cases checkPasses c s.rx <;> rfl

theorem endStep_put (st : SeqStep) (next : Pc) : Function.Commute (endStep st next) g.put := by
  intro s
  cases st with
  | line | regw => rfl
  | wait n => exact (apply_ite g.put (held s = true) s (s.goto next)).symm
  | check c => exact evalCheck_put g c next s

theorem runList_put {done : State → State} (hd : Function.Commute done g.put) (l : List SeqStep)
    (at_ : Nat → Nat → Pc) (i ev : Nat) : Function.Commute (runList l at_ done i ev) g.put := by
  intro s
  unfold runList
  cases l[i - 1]? with
  | some st => exact runFrame_put g (endStep_put g st _) (st.acts s.par) ev (at_ i) s
  | none => exact hd s

theorem busyWait_put {ret : State → State} (hr : Function.Commute ret g.put) (stage : BitVec 4) (line : BitVec 8)
    (at_ : WaitPhase → Pc) (w : WaitPhase) : Function.Commute (busyWait stage line at_ ret w) g.put := by
  intro s
  cases w with
  | start | delay => rfl
  | hold => exact (apply_ite g.put (held s = true) s (s.goto _)).symm
  | sample =>
    have hlevel : busyLevel (g.put s) = busyLevel s := rfl
    simp only [busyWait, hlevel, emitReadBusy_put]
    cases busyLevel s with
    | true =>
      rw [if_pos rfl, if_pos rfl, apply_ite g.put]
      rfl
    | false => exact hr _

theorem dispatchPowerUp_put : Function.Commute dispatchPowerUp g.put := by
  intro s
  have hsession : (g.put s).session = s.session := rfl
  unfold dispatchPowerUp
  rw [hsession]
  cases s.session <;> rfl

theorem dispatchPowerDown_put : Function.Commute dispatchPowerDown g.put := by
  intro s
  unfold dispatchPowerDown
  rw [apply_ite g.put]
  rfl

theorem validateUpdate_put : Function.Commute validateUpdate g.put := by
  intro s
  unfold validateUpdate
  rw [apply_ite g.put, apply_ite g.put]
  rfl

theorem nextRow_put : Function.Commute nextRow g.put := by
  intro s
  unfold nextRow
  rw [apply_ite g.put]
  rfl

theorem endPass_put : Function.Commute endPass g.put := by
  intro s
  unfold endPass
  rw [apply_ite g.put, apply_ite g.put]
  rfl

theorem endHandshake_put : Function.Commute endHandshake g.put := by
  intro s
  have hmode : (g.put s).upd.modeL = s.upd.modeL := rfl
  unfold endHandshake
  rw [hmode]
  cases s.upd.modeL <;> rfl

/-! ### Nor do the steps of a command -/

theorem commonStep_put : Function.Semiconj commonStep g.put (mapNext g.put) := by
  intro s
  have hpc : (g.put s).pc = s.pc := rfl
  unfold commonStep
  rw [hpc]
  cases s.pc <;> rfl

theorem reservedStep_put : Function.Semiconj reservedStep g.put (mapNext g.put) := by
  intro s
  have hput : (g.put s).pc = s.pc := rfl
  unfold reservedStep
  rw [hput]
  cases s.pc
  case dispatch => rfl
  all_goals exact commonStep_put g s

theorem powerUpStep_put : Function.Semiconj powerUpStep g.put (mapNext g.put) := by
  intro s
  have hput : (g.put s).pc = s.pc := rfl
  unfold powerUpStep
  rw [hput]
  cases s.pc
  case dispatch => exact congrArg Host.Outcome.next (dispatchPowerUp_put g s)
  case pd i ev => exact congrArg Host.Outcome.next (runList_put g (endPowerDown_put g _) (pdList s.par) .pd i ev s)
  case puStart => rfl
  case pu i ev => exact congrArg Host.Outcome.next (runList_put g (endPowerUp_put g) (puList s.par) .pu i ev s)
  all_goals exact commonStep_put g s

theorem powerDownStep_put : Function.Semiconj powerDownStep g.put (mapNext g.put) := by
  intro s
  have hput : (g.put s).pc = s.pc := rfl
  unfold powerDownStep
  rw [hput]
  cases s.pc
  case dispatch => exact congrArg Host.Outcome.next (dispatchPowerDown_put g s)
  case pd i ev => exact congrArg Host.Outcome.next (runList_put g (endPowerDown_put g _) (pdList s.par) .pd i ev s)
  all_goals exact commonStep_put g s

theorem updateStep_put : Function.Semiconj updateStep g.put (mapNext g.put) := by
  intro s
  have hput : (g.put s).pc = s.pc := rfl
  have hstage : currentStage (g.put s) = currentStage s := rfl
  unfold updateStep
  rw [hput]
  cases s.pc
  case dispatch => exact congrArg Host.Outcome.next (validateUpdate_put g s)
  case row | encode =>
    simp only [hstage]
    cases currentStage s <;> rfl
  case line ev => exact congrArg Host.Outcome.next (runFrame_put g (goto_put g _) _ ev .line s)
  case wait w => exact congrArg Host.Outcome.next (busyWait_put g (nextRow_put g) _ _ .wait w s)
  case passEnd => exact congrArg Host.Outcome.next (endPass_put g s)
  case handshake ev => exact congrArg Host.Outcome.next (runFrame_put g (endHandshake_put g) _ ev .handshake s)
  case settle ev => exact congrArg Host.Outcome.next (runFrame_put g (goto_put g _) _ ev .settle s)
  case settleWait w => exact congrArg Host.Outcome.next (busyWait_put g (goto_put g _) _ _ .settleWait w s)
  case latch | stageStart | fetch => rfl
  all_goals exact commonStep_put g s

theorem opStep_put (op : BitVec 4) : Function.Semiconj (opStep op) g.put (mapNext g.put) := by
  intro s
  unfold opStep
  split_ifs
  · rfl
  · exact powerUpStep_put g s
  · exact powerDownStep_put g s
  · exact updateStep_put g s
  · exact reservedStep_put g s

theorem engineTurn_put : Function.Semiconj engineTurn g.put (mapNext g.put) := by
  intro s
  cases hb : s.busy with
  | false => rw [engineTurn_idle hb, engineTurn_idle (s := g.put s) hb]; rfl
  | true =>
    rw [engineTurn_running hb, engineTurn_running (s := g.put s) hb]
    exact opStep_put g s.cur.op s

end Put

/-- Settles O56: every operation an ENGINE step is made of commutes with a change of the registers. -/
theorem runningCommandIgnoresHostRegisters : Obligations.RunningCommandIgnoresHostRegisters :=
  fun s a b c o => engineTurn_put ⟨a, b, c, o⟩ s

end Sys2Proof.Machine

end

section
/-! O1, O2, O4: the decoder by rows of the opcode map, and decode and encode as inverses. -/

namespace Sys2Proof

open BitVec

/-! ### The rows by OP and MODE (R77, R78, R81) -/

/-- An OP is one of the four of the command rows, or in one of the two reserved ranges (R81). -/
theorem op_cases (op : BitVec 4) :
    op = 0 ∨ op = 1 ∨ op = 2 ∨ op = 3 ∨ (4 ≤ op.toNat ∧ op.toNat ≤ 7) ∨ 8 ≤ op.toNat := by
  revert op
  decide

section DecodeRows

variable {w : Word}

theorem decodeWord_nop (h : opField w = 0) : decodeWord w = .nop (ignoredField w) := by
  simp [decodeWord, h]

theorem decodeWord_powerUp (h : opField w = 1) : decodeWord w = .powerUp (ignoredField w) := by
  simp [decodeWord, h]

theorem decodeWord_powerDown (h : opField w = 2) : decodeWord w = .powerDown (ignoredField w) := by
  simp [decodeWord, h]

theorem decodeWord_updateFull (h : opField w = 3) (hm : modeField w = 0) :
    decodeWord w = .updateFull (tempField w) (reservedField w) := by
  simp [decodeWord, h, hm]

theorem decodeWord_updatePartial (h : opField w = 3) (hm : modeField w = 1) :
    decodeWord w = .updatePartial (tempField w) (reservedField w) := by
  simp [decodeWord, h, hm]

/-- Past OP 3 only the reserved rows are left. -/
theorem decodeWord_reserved (h : 4 ≤ (opField w).toNat) :
    decodeWord w = if (opField w).toNat < 8 then .reserved4to7 (opField w) (ignoredField w)
      else .reserved8toF (opField w) (ignoredField w) := by
  have hne {op : BitVec 4} (hop : op.toNat < 4) : opField w ≠ op := by
    rintro rfl
    omega
  rw [decodeWord, if_neg (hne (by decide)), if_neg (hne (by decide)), if_neg (hne (by decide)),
    if_neg (hne (by decide))]

theorem decodeWord_reserved4to7 (h4 : 4 ≤ (opField w).toNat) (h7 : (opField w).toNat ≤ 7) :
    decodeWord w = .reserved4to7 (opField w) (ignoredField w) := by
  rw [decodeWord_reserved h4, if_pos (by omega)]

theorem decodeWord_reserved8toF (h : 8 ≤ (opField w).toNat) :
    decodeWord w = .reserved8toF (opField w) (ignoredField w) := by
  rw [decodeWord_reserved (by omega), if_neg (by omega)]

end DecodeRows

/-! ### The fields of an update's word (R78, R79, R80) -/

section UpdateFields

variable (temp : BitVec 16) (reserved : BitVec 11) (mode : BitVec 1) (op : BitVec 4)

theorem modeField_append : modeField (temp ++ reserved ++ mode ++ op : BitVec 32) = mode := by
  refine (extractLsb'_append_eq_of_le (by decide)).trans ?_
  exact extractLsb'_append_eq_right

theorem reservedField_append : reservedField (temp ++ reserved ++ mode ++ op : BitVec 32) = reserved := by
  refine (extractLsb'_append_eq_of_le (by decide)).trans ?_
  refine (extractLsb'_append_eq_of_le (by decide)).trans ?_
  exact extractLsb'_append_eq_right

theorem tempField_append : tempField (temp ++ reserved ++ mode ++ op : BitVec 32) = temp := by
  refine (extractLsb'_append_eq_of_le (by decide)).trans ?_
  refine (extractLsb'_append_eq_of_le (by decide)).trans ?_
  exact extractLsb'_append_eq_left

end UpdateFields

/-- A word is its ignored bits and its OP. -/
theorem word_of_op {w : Word} {op : BitVec 4} (h : opField w = op) : (ignoredField w ++ op : BitVec 32) = w :=
  h ▸ word_split w

/-- A word is its TEMP, its reserved bits, its MODE and its OP. -/
theorem word_of_mode_op {w : Word} {mode : BitVec 1} {op : BitVec 4} (hm : modeField w = mode) (h : opField w = op) :
    (tempField w ++ reservedField w ++ mode ++ op : BitVec 32) = w := by
  subst hm h
  unfold tempField reservedField modeField opField
  rw [extractLsb'_append_extractLsb'_eq_extractLsb' (by decide),
    extractLsb'_append_extractLsb'_eq_extractLsb' (by decide),
    extractLsb'_append_extractLsb'_eq_extractLsb' (by decide)]
  exact extractLsb'_eq_self

/-! ### Decode and encode (R76, R83) -/

theorem decodeWord_encode {i : Instr} (h : i.wf = true) : decodeWord (encode i) = i := by
  cases i with
  | nop x => rw [decodeWord_nop (Laws.OpOfWord.nop x), encode, ignoredField_append]
  | powerUp x => rw [decodeWord_powerUp (Laws.OpOfWord.powerUp x), encode, ignoredField_append]
  | powerDown x => rw [decodeWord_powerDown (Laws.OpOfWord.powerDown x), encode, ignoredField_append]
  | updateFull t r =>
    rw [decodeWord_updateFull (Laws.OpOfWord.updateFull t r) (modeField_append t r 0 3), encode, tempField_append,
      reservedField_append]
  | updatePartial t r =>
    rw [decodeWord_updatePartial (Laws.OpOfWord.updatePartial t r) (modeField_append t r 1 3), encode,
      tempField_append, reservedField_append]
  | reserved4to7 op x =>
    obtain ⟨h4, h7⟩ : 4 ≤ op.toNat ∧ op.toNat ≤ 7 := by simpa [Instr.wf] using h
    have hop : opField (encode (.reserved4to7 op x)) = op := Laws.OpOfWord.reserved4to7 op x
    rw [decodeWord_reserved4to7 (by rwa [hop]) (by rwa [hop]), hop, encode, ignoredField_append]
  | reserved8toF op x =>
    have h8 : 8 ≤ op.toNat := by simpa [Instr.wf] using h
    have hop : opField (encode (.reserved8toF op x)) = op := Laws.OpOfWord.reserved8toF op x
    rw [decodeWord_reserved8toF (by rwa [hop]), hop, encode, ignoredField_append]

theorem wf_encode_decodeWord (w : Word) : (decodeWord w).wf = true ∧ encode (decodeWord w) = w := by
  rcases op_cases (opField w) with h | h | h | h | ⟨h4, h7⟩ | h
  · exact decodeWord_nop h ▸ ⟨rfl, word_of_op h⟩
  · exact decodeWord_powerUp h ▸ ⟨rfl, word_of_op h⟩
  · exact decodeWord_powerDown h ▸ ⟨rfl, word_of_op h⟩
  · rcases BitVec.eq_zero_or_eq_one (modeField w) with hm | hm
    · exact decodeWord_updateFull h hm ▸ ⟨rfl, word_of_mode_op hm h⟩
    · exact decodeWord_updatePartial h hm ▸ ⟨rfl, word_of_mode_op hm h⟩
  · exact decodeWord_reserved4to7 h4 h7 ▸ ⟨by simp [Instr.wf, h4, h7], word_split w⟩
  · exact decodeWord_reserved8toF h ▸ ⟨by simp [Instr.wf, h], word_split w⟩

theorem encode_decodeWord (w : Word) : encode (decodeWord w) = w := (wf_encode_decodeWord w).2

/-! ### The row of a word (R81) -/

/-- No row of the opcode map looks above bit 4. -/
theorem rowsOf_low (w : Word) : rowsOf (w &&& 0x1F) = rowsOf w := by
  have hmask : ∀ row ∈ opcodeMap, 0x1F &&& row.mask = row.mask := by decide
  have hrow : ∀ row ∈ opcodeMap, (w &&& 0x1F &&& row.mask == row.pat) = (w &&& row.mask == row.pat) := by
    intro row h
    rw [BitVec.and_assoc, hmask row h]
  rw [rowsOf, List.filter_congr hrow, rowsOf]

/-- The row of a decoded command is settled by OP and MODE. -/
theorem mnemonic_decodeWord_congr {w w' : Word} (hop : opField w = opField w') (hm : modeField w = modeField w') :
    (decodeWord w).mnemonic = (decodeWord w').mnemonic := by
  unfold decodeWord
  rw [hop, hm]
  split_ifs <;> rfl

/-- The one row that admits a word is its command's: both depend on the low five bits alone, so 32 words decide it. -/
theorem rowsOf_decodeWord (w : Word) : rowsOf w = [(decodeWord w).mnemonic] := by
  have hlow : w &&& 0x1F = (w.setWidth 5).setWidth 32 := by
    apply BitVec.eq_of_toNat_eq
    rw [toNat_and, toNat_setWidth, toNat_setWidth]
    exact (Nat.and_two_pow_sub_one_eq_mod w.toNat 5).trans (by omega)
  have hrows : ∀ x : BitVec 5, rowsOf (x.setWidth 32) = [(decodeWord (x.setWidth 32)).mnemonic] := by decide
  have hop : opField ((w.setWidth 5).setWidth 32) = opField w :=
    (extractLsb'_setWidth_of_le (by decide)).trans (extractLsb'_setWidth_of_le (by decide))
  have hmode : modeField ((w.setWidth 5).setWidth 32) = modeField w :=
    (extractLsb'_setWidth_of_le (by decide)).trans (extractLsb'_setWidth_of_le (by decide))
  rw [← rowsOf_low, hlow, hrows, mnemonic_decodeWord_congr hop hmode]

/-! ### The obligations -/

/-- Settles O1, by cases on the row of the command: its word has the row's OP and MODE, and the fields are read back. -/
theorem decodeOfEncode : Obligations.DecodeOfEncode :=
  fun _ => decodeWord_encode

/-- Settles O2, by cases on OP and MODE; the row by the low five bits. -/
theorem encodeOfDecode : Obligations.EncodeOfDecode := fun w =>
  have ⟨hwf, hencode⟩ := wf_encode_decodeWord w
  ⟨hwf, hencode, rowsOf_decodeWord w⟩

/-- Settles O4, by running the decoder on each word. -/
theorem sampleWords : Obligations.SampleWords := by
  unfold Obligations.SampleWords
  decide

end Sys2Proof

end

section
/-! O5: the bits a word ignores have no part in its issue, nor MODE and TEMP in the steps of a command that is no
UPDATE. -/

namespace Sys2Proof.Machine

/-! ### The issue of a word (R80, R87) -/

/-- A CMD write to an idle engine: NOP has no effect, and every other word is accepted (R87, R91). -/
theorem cmdWrite_idle {s : State} (hb : s.busy = false) (w : Word) :
    cmdWrite w s = .next (if opField w = 0 then s else accept w s) := by
  rw [cmdWrite, hb, if_neg Bool.false_ne_true]
  split_ifs with hop
  · rw [decodeWord_nop hop]
    rfl
  · rw [exec_accept hb (decodeWord_ne_nop hop), encode_decodeWord]

theorem cmdWrite_running {s : State} (hb : s.busy = true) (w : Word) :
    cmdWrite w s = .next { s with overrun := true } := by
  rw [cmdWrite, if_pos hb]

/-- Acceptance takes OP, MODE and TEMP of the word and nothing else of it (R87). -/
theorem accept_congr {w w' : Word} (hop : opField w = opField w') (hm : modeField w = modeField w')
    (ht : tempField w = tempField w') (s : State) : accept w s = accept w' s := by
  simp only [accept, curOfWord, hop, hm, ht]

theorem cmdWrite_congr {w w' : Word} (hop : opField w = opField w') (hm : modeField w = modeField w')
    (ht : tempField w = tempField w') (s : State) : cmdWrite w s = cmdWrite w' s := by
  cases hb : s.busy with
  | true => rw [cmdWrite_running hb, cmdWrite_running hb]
  | false => rw [cmdWrite_idle hb, cmdWrite_idle hb, accept_congr hop hm ht, hop]

/-! ### The shared operations do not see MODE and TEMP of CUR -/

/-- s with these bits in CUR.MODE and CUR.TEMP. -/
def putModeTemp (m : BitVec 1) (t : BitVec 16) (s : State) : State :=
  { s with cur := { s.cur with mode := m, temp := t } }

section PutModeTemp

variable (m : BitVec 1) (t : BitVec 16)

theorem emit_putModeTemp (a : Act) (s : State) : emit a (putModeTemp m t s) = putModeTemp m t (emit a s) := by
  cases a with
  | read tx =>
    simp only [emit, emitRead, putModeTemp]
    cases s.rxQueue <;> rfl
  | setLine | write | delay => rfl

theorem evalCheck_putModeTemp (c : Check) (next : Pc) (s : State) :
    evalCheck c next (putModeTemp m t s) = putModeTemp m t (evalCheck c next s) := by
  have hrx : (putModeTemp m t s).rx = s.rx := rfl
  unfold evalCheck
  rw [hrx]
  cases checkPasses c s.rx <;> rfl

theorem endStep_putModeTemp (st : SeqStep) (next : Pc) :
    Function.Commute (endStep st next) (putModeTemp m t) := by
  intro s
  cases st with
  | line | regw => rfl
  | wait n => exact (apply_ite (putModeTemp m t) (held s = true) s (s.goto next)).symm
  | check c => exact evalCheck_putModeTemp m t c next s

theorem runList_putModeTemp {done : State → State} (hd : Function.Commute done (putModeTemp m t)) (l : List SeqStep)
    (at_ : Nat → Nat → Pc) (i ev : Nat) : Function.Commute (runList l at_ done i ev) (putModeTemp m t) := by
  intro s
  have hpar : (putModeTemp m t s).par = s.par := rfl
  unfold runList
  cases l[i - 1]? with
  | none => exact hd s
  | some st =>
    simp only [runFrame, hpar]
    cases (st.acts s.par)[ev]? with
    | some a => exact congrArg (fun u => u.goto (at_ i (ev + 1))) (emit_putModeTemp m t a s)
    | none => exact endStep_putModeTemp m t st _ s

theorem dispatchPowerUp_putModeTemp : Function.Commute dispatchPowerUp (putModeTemp m t) := by
  intro s
  have hsession : (putModeTemp m t s).session = s.session := rfl
  unfold dispatchPowerUp
  rw [hsession]
  cases s.session <;> rfl

theorem dispatchPowerDown_putModeTemp : Function.Commute dispatchPowerDown (putModeTemp m t) := by
  intro s
  unfold dispatchPowerDown
  rw [apply_ite (putModeTemp m t)]
  rfl

theorem endPowerUp_putModeTemp : Function.Commute endPowerUp (putModeTemp m t) := fun _ => rfl

theorem endPowerDown_putModeTemp (next : Pc) : Function.Commute (endPowerDown next) (putModeTemp m t) := fun _ => rfl

/-! ### Nor do the steps of a command that is no UPDATE -/

theorem commonStep_putModeTemp :
    Function.Semiconj commonStep (putModeTemp m t) (mapNext (putModeTemp m t)) := by
  intro s
  have hpc : (putModeTemp m t s).pc = s.pc := rfl
  unfold commonStep
  rw [hpc]
  cases s.pc <;> rfl

theorem reservedStep_putModeTemp :
    Function.Semiconj reservedStep (putModeTemp m t) (mapNext (putModeTemp m t)) := by
  intro s
  have hpc : (putModeTemp m t s).pc = s.pc := rfl
  unfold reservedStep
  rw [hpc]
  cases s.pc
  case dispatch => rfl
  all_goals exact commonStep_putModeTemp m t s

theorem powerUpStep_putModeTemp :
    Function.Semiconj powerUpStep (putModeTemp m t) (mapNext (putModeTemp m t)) := by
  intro s
  have hpc : (putModeTemp m t s).pc = s.pc := rfl
  unfold powerUpStep
  rw [hpc]
  cases s.pc
  case dispatch => exact congrArg Host.Outcome.next (dispatchPowerUp_putModeTemp m t s)
  case pd i ev =>
    exact congrArg Host.Outcome.next
      (runList_putModeTemp m t (endPowerDown_putModeTemp m t _) (pdList s.par) .pd i ev s)
  case puStart => rfl
  case pu i ev =>
    exact congrArg Host.Outcome.next (runList_putModeTemp m t (endPowerUp_putModeTemp m t) (puList s.par) .pu i ev s)
  all_goals exact commonStep_putModeTemp m t s

theorem powerDownStep_putModeTemp :
    Function.Semiconj powerDownStep (putModeTemp m t) (mapNext (putModeTemp m t)) := by
  intro s
  have hpc : (putModeTemp m t s).pc = s.pc := rfl
  unfold powerDownStep
  rw [hpc]
  cases s.pc
  case dispatch => exact congrArg Host.Outcome.next (dispatchPowerDown_putModeTemp m t s)
  case pd i ev =>
    exact congrArg Host.Outcome.next
      (runList_putModeTemp m t (endPowerDown_putModeTemp m t _) (pdList s.par) .pd i ev s)
  all_goals exact commonStep_putModeTemp m t s

theorem engineTurn_putModeTemp {s : State} (hop : s.cur.op ≠ 3) :
    engineTurn (putModeTemp m t s) = mapNext (putModeTemp m t) (engineTurn s) := by
  cases hb : s.busy with
  | false => rw [engineTurn_idle hb, engineTurn_idle (s := putModeTemp m t s) hb]; rfl
  | true =>
    have hcur : (putModeTemp m t s).cur.op = s.cur.op := rfl
    rw [engineTurn_running hb, engineTurn_running (s := putModeTemp m t s) hb, hcur]
    unfold opStep
    split_ifs
    · rfl
    · exact powerUpStep_putModeTemp m t s
    · exact powerDownStep_putModeTemp m t s
    · exact reservedStep_putModeTemp m t s

end PutModeTemp

/-- Settles O5: acceptance copies OP, MODE and TEMP alone, and only an UPDATE's steps read MODE and TEMP. -/
theorem ignoredBitsChangeNothing : Obligations.IgnoredBitsChangeNothing :=
  ⟨fun _ _ s hop hm ht => cmdWrite_congr hop hm ht s, fun _ m t => engineTurn_putModeTemp m t⟩

end Sys2Proof.Machine

end

section
/-! O36: the bytes of a line by offset, and the bit pairs of its data bytes. -/

namespace Sys2Proof.Machine

open BitVec

/-! ### The parts of a line (R101 to R104) -/

variable (p : Params) (r : BitVec 8) (ps : PixelSource) (src : Vector Byte 33)

@[simp] theorem scanBytes_length : (scanBytes p r).length = 44 := by
  simp [scanBytes]

@[simp] theorem evenBytes_length : (evenBytes p ps src).length = 33 := by
  simp [evenBytes]

@[simp] theorem oddBytes_length : (oddBytes p ps src).length = 33 := by
  simp [oddBytes]

theorem scanBytes_getElem? {j : Nat} (hj : j < 44) : (scanBytes p r)[j]? = some (scanByte p r j) := by
  simp [scanBytes, hj]

/-- E_b stands b places before the end of the even bytes (R104). -/
theorem evenBytes_getElem? {b : Nat} (hb : b ≤ 32) : (evenBytes p ps src)[32 - b]? = some (evenByte p ps src b) := by
  have hlt : 32 - b < 33 := by omega
  have hsub : 32 - (32 - b) = b := by omega
  simp [evenBytes, hlt, hsub]

theorem oddBytes_getElem? {b : Nat} (hb : b ≤ 32) : (oddBytes p ps src)[b]? = some (oddByte p ps src b) := by
  have hlt : b < 33 := by omega
  simp [oddBytes, hlt]

/-! ### A line by offset, in either layout (R104, R109) -/

/-- The offset of scan byte 0 in a line, for each layout (R104). -/
def scanOffset (p : Params) : Nat :=
  match p.lineLayout with
  | .scanDataDummy => 0
  | .evenScanOddDummy => 33

@[simp] theorem encodeLine_toList : (encodeLine p r ps src).toList = lineList p r ps src := rfl

/-- A part of a list, read from where it begins. -/
theorem getElem?_append_part {α : Type} {l₁ l₂ l₃ : List α} {n i : Nat} (hn : l₁.length = n) (hi : i < l₂.length) :
    (l₁ ++ l₂ ++ l₃)[n + i]? = l₂[i]? := by
  rw [List.append_assoc, List.getElem?_append_right (by omega), hn, Nat.add_sub_cancel_left,
    List.getElem?_append_left hi]

theorem lineList_scan {j : Nat} (hj : j < 44) : (lineList p r ps src)[scanOffset p + j]? = some (scanByte p r j) := by
  have hlt : j < (scanBytes p r).length := by rwa [scanBytes_length]
  rw [← scanBytes_getElem? p r hj, lineList, scanOffset]
  cases p.lineLayout with
  | scanDataDummy =>
    rw [List.append_assoc, List.append_assoc]
    exact getElem?_append_part (l₁ := []) rfl hlt
  | evenScanOddDummy =>
    rw [List.append_assoc]
    exact getElem?_append_part (evenBytes_length p ps src) hlt

theorem lineList_even {b : Nat} (hb : b ≤ 32) :
    (lineList p r ps src)[evenOffset p b]? = some (evenByte p ps src b) := by
  have hlt : 32 - b < (evenBytes p ps src).length := by rw [evenBytes_length]; omega
  rw [← evenBytes_getElem? p ps src hb, lineList, evenOffset]
  cases p.lineLayout with
  | scanDataDummy =>
    rw [List.append_assoc]
    exact getElem?_append_part (scanBytes_length p r) hlt
  | evenScanOddDummy =>
    rw [List.append_assoc, List.append_assoc]
    exact List.getElem?_append_left hlt

theorem lineList_odd {b : Nat} (hb : b ≤ 32) : (lineList p r ps src)[oddOffset b]? = some (oddByte p ps src b) := by
  have hlt : b < (oddBytes p ps src).length := by rw [oddBytes_length]; omega
  rw [← oddBytes_getElem? p ps src hb, lineList, oddOffset]
  cases p.lineLayout <;> exact getElem?_append_part (by simp) hlt

theorem lineList_dummy : (lineList p r ps src)[110]? = some p.dummyByte := by
  rw [lineList]
  cases p.lineLayout <;> simp

/-! ### The bit pairs of a data byte (R100) -/

/-- The bit pairs of a byte put together from four. -/
theorem bitPairs_append (a b c d : BitVec 2) :
    (a ++ b ++ c ++ d : BitVec 8).extractLsb' 6 2 = a ∧ (a ++ b ++ c ++ d : BitVec 8).extractLsb' 4 2 = b ∧
      (a ++ b ++ c ++ d : BitVec 8).extractLsb' 2 2 = c ∧ (a ++ b ++ c ++ d : BitVec 8).extractLsb' 0 2 = d := by
  refine ⟨?_, ?_, ?_, extractLsb'_append_eq_right⟩
  · iterate 2 rw [extractLsb'_append_eq_of_le (by decide)]
    exact extractLsb'_append_eq_left
  · rw [extractLsb'_append_eq_of_le (by decide)]
    exact (extractLsb'_append_eq_of_le (by decide)).trans extractLsb'_append_eq_right
  · exact (extractLsb'_append_eq_of_le (by decide)).trans extractLsb'_append_eq_right

/-- Column 8b + 2k stands at [7−2k : 6−2k] of E_b (R100, R101). -/
theorem evenByte_bitPair (b : Nat) {k : Nat} (hk : k < 4) :
    (evenByte p ps src b).extractLsb' (6 - 2 * k) 2 = codeAt p ps src (8 * b + 2 * k) := by
  obtain ⟨h0, h1, h2, h3⟩ := bitPairs_append (codeAt p ps src (8 * b)) (codeAt p ps src (8 * b + 2))
    (codeAt p ps src (8 * b + 4)) (codeAt p ps src (8 * b + 6))
  interval_cases k
  exacts [h0, h1, h2, h3]

/-- Column 8b + 2k + 1 stands at [2k+1 : 2k] of O_b (R100, R102). -/
theorem oddByte_bitPair (b : Nat) {k : Nat} (hk : k < 4) :
    (oddByte p ps src b).extractLsb' (2 * k) 2 = codeAt p ps src (8 * b + 2 * k + 1) := by
  obtain ⟨h3, h2, h1, h0⟩ := bitPairs_append (codeAt p ps src (8 * b + 7)) (codeAt p ps src (8 * b + 5))
    (codeAt p ps src (8 * b + 3)) (codeAt p ps src (8 * b + 1))
  interval_cases k
  exacts [h0, h1, h2, h3]

/-- Settles O36: the parts of a line stand one after the other, and a data byte is its four codes. -/
theorem lineByOffset : Obligations.LineByOffset := by
  simp only [Obligations.LineByOffset, encodeLine_toList]
  refine ⟨fun p r ps src hlay => ?_, fun p r ps src hlay => ?_, fun p ps src b k _ hk =>
    ⟨evenByte_bitPair p ps src b hk, oddByte_bitPair p ps src b hk⟩⟩
  · have hscan : scanOffset p = 0 := by rw [scanOffset, hlay]
    have heven (b : Nat) : evenOffset p b = 44 + (32 - b) := by rw [evenOffset, hlay]
    refine ⟨lineList_length p r ps src, fun j hj => ?_, fun b hb => ?_, fun b => lineList_odd p r ps src,
      lineList_dummy p r ps src⟩
    · have h := lineList_scan p r ps src hj
      rw [hscan, Nat.zero_add] at h
      exact h
    · exact heven b ▸ lineList_even p r ps src hb
  · have hscan : scanOffset p = 33 := by rw [scanOffset, hlay]
    have heven (b : Nat) : evenOffset p b = 32 - b := by rw [evenOffset, hlay]
    refine ⟨lineList_length p r ps src, fun b hb => ?_, fun j hj => ?_, fun b => lineList_odd p r ps src,
      lineList_dummy p r ps src⟩
    · exact heven b ▸ lineList_even p r ps src hb
    · exact hscan ▸ lineList_scan p r ps src hj

end Sys2Proof.Machine

end

section
/-! O16 to O19: what a CMD write does with its word, the one ENGINE step of a reserved opcode, and who clears OVERRUN. -/

namespace Sys2Proof.Machine

/-! ### The step of a reserved opcode (R92, R148) -/

theorem exec_reserved_running {s : State} (hb : s.busy = true) {i : Instr} {op : BitVec 4} {x : BitVec 28}
    (hi : i = .reserved4to7 op x ∨ i = .reserved8toF op x) : exec i s = reservedStep s := by
  rcases hi with rfl | rfl
  · exact exec_reserved4to7_running hb op x
  · exact exec_reserved8toF_running hb op x

theorem reservedStep_dispatch {s : State} (hpc : s.pc = .dispatch) :
    reservedStep s = .next (complete .illegalCommand 0 0 0 s) := by
  rw [reservedStep, hpc]

theorem engineTurn_reserved {s : State} (hb : s.busy = true) (hop : 4 ≤ s.cur.op.toNat) :
    engineTurn s = reservedStep s := by
  have hne : ∀ k : BitVec 4, k.toNat < 4 → s.cur.op ≠ k := by
    rintro k hk rfl
    omega
  rw [engineTurn_running hb, opStep, if_neg (hne 0 (by decide)), if_neg (hne 1 (by decide)),
    if_neg (hne 2 (by decide)), if_neg (hne 3 (by decide))]

/-- A well-formed reserved command is no NOP, its OP is in a reserved row, and its word has that OP (R81). -/
theorem reserved_op {i : Instr} {op : BitVec 4} {x : BitVec 28} (hi : i = .reserved4to7 op x ∨ i = .reserved8toF op x)
    (hwf : i.wf = true) : (∀ y, i ≠ .nop y) ∧ 4 ≤ op.toNat ∧ opField (encode i) = op := by
  rcases hi with rfl | rfl
  · have hop : 4 ≤ op.toNat ∧ op.toNat ≤ 7 := by simpa [Instr.wf] using hwf
    exact ⟨nofun, hop.1, Laws.OpOfWord.reserved4to7 op x⟩
  · have hop : 8 ≤ op.toNat := by simpa [Instr.wf] using hwf
    exact ⟨nofun, by omega, Laws.OpOfWord.reserved8toF op x⟩

/-! ### Who clears OVERRUN (R24, R93) -/

theorem offset_of_regAt {off : Nat} {r : Reg} (h : regAt off = some r) : off = r.offset := by
  unfold regAt at h
  split_ifs at h <;> cases h <;> assumption

theorem cmdWrite_keeps_overrun {w : Word} {s t : State} (ho : s.overrun = true) (h : cmdWrite w s = .next t) :
    t.overrun = true := by
  cases hb : s.busy with
  | true => cases (cmdWrite_running hb w).symm.trans h; rfl
  | false =>
    cases (cmdWrite_idle hb w).symm.trans h
    split_ifs <;> exact ho

/-- A host write clears OVERRUN only at STATUS, with bit 4 of the value set. -/
theorem hostWrite_clears_overrun {off : Nat} {v : Word} {s t : State} (ho : s.overrun = true)
    (h : hostWrite off v s = .next t) (hc : t.overrun = false) : off = Reg.status.offset ∧ v.getLsbD 4 = true := by
  unfold hostWrite at h
  cases hr : regAt off with
  | none =>
    rw [hr] at h
    cases h
    cases ho.symm.trans hc
  | some r =>
    rw [hr] at h
    cases r with
    | cmd => cases (cmdWrite_keeps_overrun ho h).symm.trans hc
    | status =>
      cases h
      exact ⟨offset_of_regAt hr, by simpa [ho] using hc⟩
    | result | fbBase | fbLen | busyTimeout | lastTemp | stageMs | stRaw =>
      cases h
      cases ho.symm.trans hc

/-- A HOST turn with no register write next keeps OVERRUN. -/
theorem hostTurn_keeps_overrun {s t : State} (h : hostTurn s = .next t)
    (hw : ¬ ∃ off bytes v ops, s.host = .wr off bytes v :: ops) : t.overrun = s.overrun := by
  cases hs : s.host with
  | nil => cases (hostTurn_nil hs).symm.trans h; rfl
  | cons op ops =>
    cases op with
    | rd off bytes =>
      rw [hostTurn_rd hs] at h
      split at h <;> cases h
      rfl
    | wr off bytes v => exact absurd ⟨off, bytes, v, ops, hs⟩ hw
    | waitIdle =>
      cases (hostTurn_waitIdle hs).symm.trans h
      cases s.busy <;> rfl
    | expect off mask v =>
      rw [hostTurn_expect hs] at h
      split at h <;> cases h
      rfl
    | memWr a v => cases (hostTurn_memWr hs).symm.trans h; rfl

/-- A HOST turn clears OVERRUN only by a write of STATUS with bit 4 set. -/
theorem hostTurn_clears_overrun {s t : State} (ho : s.overrun = true) (h : hostTurn s = .next t)
    (hc : t.overrun = false) : ∃ v ops, s.host = .wr 0x04 4 v :: ops ∧ v.getLsbD 4 = true := by
  by_cases hw : ∃ off bytes v ops, s.host = .wr off bytes v :: ops
  · obtain ⟨off, bytes, v, ops, hs⟩ := hw
    rw [hostTurn_wr hs] at h
    split_ifs at h with hok
    obtain ⟨rfl, -, -⟩ := (accessOk_iff off bytes).1 hok
    obtain ⟨rfl, hv⟩ := hostWrite_clears_overrun (s := { s with host := ops }) ho h hc
    exact ⟨v, ops, hs, hv⟩
  · cases ho.symm.trans ((hostTurn_keeps_overrun h hw).symm.trans hc)

theorem takeTurn_clears_overrun {u : Turn} {s t : State} (ho : s.overrun = true) (h : takeTurn u s = .next t)
    (hc : t.overrun = false) :
    u = .rst ∨ (u = .host ∧ ∃ v ops, s.host = .wr 0x04 4 v :: ops ∧ v.getLsbD 4 = true) := by
  cases u with
  | rst => exact .inl rfl
  | host => exact .inr ⟨rfl, hostTurn_clears_overrun ho h hc⟩
  | engine =>
    have hkeep : t.overrun = s.overrun := congrArg Surroundings.overrun (engineTurn_move h).surroundings
    cases ho.symm.trans (hkeep.symm.trans hc)
  | clock => cases h; cases ho.symm.trans hc
  | short => cases shortTurn_eq h; cases ho.symm.trans hc

/-! ### The obligations -/

/-- Settles O16: an idle engine's acceptance is `accept` of the word, whose fields are CUR's. -/
theorem cmdWriteAccepts : Obligations.CmdWriteAccepts := by
  intro s w
  refine ⟨fun hb => cmdWrite_running hb w, fun hb hop => ?_, fun hb => hostWrite_cmd_idle hb w,
    fun hb hop => ⟨accept w s, ?_, rfl⟩⟩
  · rw [cmdWrite_idle hb, if_pos hop]
  · rw [exec_accept hb (decodeWord_ne_nop hop), encode_decodeWord]

/-- Settles O18: the accepted command stands at DISPATCH, where its first ENGINE step is the completion. -/
theorem reservedIsIllegal : Obligations.ReservedIsIllegal := by
  intro s op x i hi hwf hb
  obtain ⟨hnop, hrange, hop⟩ := reserved_op hi hwf
  have hcur : (accept (encode i) s).cur.op = op := hop
  have hstep := reservedStep_dispatch (s := accept (encode i) s) rfl
  exact ⟨accept (encode i) s, _, exec_accept hb hnop, rfl, hcur, rfl,
    (exec_reserved_running rfl hi).trans hstep, (engineTurn_reserved rfl (hcur ▸ hrange)).trans hstep, rfl,
    resultValid_word .., resultKind_word .., (resultOp_word ..).trans hcur, resultCheck_word .., resultStage_word ..,
    resultLine_word .., rfl, rfl, rfl, rfl, rfl, rfl, rfl, rfl⟩

/-- Settles O19: by cases on the turn, only a reset and the HOST's write of STATUS with bit 4 set clear OVERRUN. -/
theorem overrunIsSticky : Obligations.OverrunIsSticky :=
  ⟨fun _ w hb => cmdWrite_running hb w, fun _ _ _ => takeTurn_clears_overrun⟩

/-- Settles O17: a NOP's meaning is the state itself, and the BUSY test comes before it. -/
theorem nopHasNoEffect : Obligations.NopHasNoEffect :=
  ⟨fun _ _ => rfl, fun x _ hb => cmdWrite_running hb (encode (.nop x)), by decide, cmdWrite_idle rfl 0⟩

end Sys2Proof.Machine

end

section
/-! O37 to O40: the drive codes of a line, the uniform lines, the scan bytes, and the steps that build a line. -/

namespace Sys2Proof.Machine

/-! ### The drive code of a column (R94 to R100, R109) -/

/-- The bit pair read at column c of a line is code(c), in either layout (R99, R100). -/
theorem lineCode_lineList (p : Params) (r : BitVec 8) (ps : PixelSource) (src : Vector Byte 33) {c : Nat}
    (hc : c < 264) : lineCode p (lineList p r ps src) c = codeAt p ps src c := by
  have hb : c / 8 ≤ 32 := by omega
  have hk : c % 8 / 2 < 4 := by omega
  rw [lineCode, Nat.mul_comm]
  split
  · have hcol : 8 * (c / 8) + 2 * (c % 8 / 2) = c := by omega
    rw [List.getD_eq_getElem?_getD, lineList_even p r ps src hb, Option.getD_some, evenByte_bitPair p ps src _ hk, hcol]
  · have hcol : 8 * (c / 8) + 2 * (c % 8 / 2) + 1 = c := by omega
    rw [List.getD_eq_getElem?_getD, lineList_odd p r ps src hb, Option.getD_some, oddByte_bitPair p ps src _ hk, hcol]

theorem lineCode_image (p : Params) (r : BitVec 8) (m : ImageMap) (src : Vector Byte 33) {c : Nat} (hc : c < 264) :
    lineCode p (encodeLine p r (.image m) src).toList c = m.code p (colorOf p (pixel src c)) :=
  lineCode_lineList p r (.image m) src hc

/-- Either map, applied to the colour of a bit, as a choice between its two codes (R95, R98). -/
theorem code_colorOf (p : Params) (m : ImageMap) (bit : Bool) :
    m.code p (colorOf p bit) = if bit = p.pixelOneIsBlack then m.code p .black else m.code p .white :=
  apply_ite (m.code p) ..

/-- With distinct drive codes a map sends the two colours to different codes (R11, R98). -/
theorem code_white_ne_black {p : Params} (hp : p.codesDistinct = true) (m : ImageMap) :
    m.code p .white ≠ m.code p .black := by
  obtain ⟨⟨hbw, hbn⟩, -⟩ : (p.driveBlack ≠ p.driveWhite ∧ p.driveBlack ≠ p.driveNoChange) ∧
      p.driveWhite ≠ p.driveNoChange := by simpa [Params.codesDistinct] using hp
  cases m with
  | norm => exact hbw.symm
  | inv => exact hbn

/-- The inverse mapping undoes the map of a pixel's colour (R109). -/
theorem pixelOfCode_code_colorOf {p : Params} (hp : p.codesDistinct = true) (m : ImageMap) (bit : Bool) :
    pixelOfCode p m (m.code p (colorOf p bit)) = bit := by
  rw [code_colorOf, pixelOfCode]
  by_cases hbit : bit = p.pixelOneIsBlack
  · rw [if_pos hbit, if_pos rfl, hbit]
  · rw [if_neg hbit, if_neg (code_white_ne_black hp m), Bool.eq_not_of_ne hbit]

/-! ### The scan bytes of a row (R103) -/

/-- A scan byte is not 0 only in its row's place, when no scan pattern is 0. -/
theorem scanByte_ne_zero_iff {p : Params} (hne : ∀ v ∈ p.scanPattern.toList, v ≠ 0) (r : BitVec 8) (j : Nat) :
    scanByte p r j ≠ 0 ↔ j = r.toNat / 4 := by
  by_cases hj : j = r.toNat / 4
  · rw [scanByte, if_pos hj]
    exact iff_of_true (hne _ (by simp)) hj
  · rw [scanByte, if_neg hj]
    exact iff_of_false (not_not_intro rfl) hj

/-- Rows whose scan bytes agree in the first one's place are the same row. -/
theorem row_eq_of_scanByte_eq {p : Params} (hnd : p.scanPattern.toList.Nodup)
    (hne : ∀ v ∈ p.scanPattern.toList, v ≠ 0) {r r' : BitVec 8}
    (h : scanByte p r (r.toNat / 4) = scanByte p r' (r.toNat / 4)) : r = r' := by
  have hdiv : r.toNat / 4 = r'.toNat / 4 := by
    rw [← scanByte_ne_zero_iff hne, ← h, scanByte_ne_zero_iff hne]
  have hmod : r.toNat % 4 = r'.toNat % 4 := by
    rw [scanByte, if_pos rfl, scanByte, if_pos hdiv] at h
    by_contra hmod
    exact (vector_nodup_iff p.scanPattern).1 hnd ⟨r.toNat % 4, by omega⟩ ⟨r'.toNat % 4, by omega⟩
      (by simpa using hmod) h
  exact BitVec.eq_of_toNat_eq (by omega)

theorem scanBytes_injective {p : Params} (hnd : p.scanPattern.toList.Nodup)
    (hne : ∀ v ∈ p.scanPattern.toList, v ≠ 0) {r r' : BitVec 8} (hr : r.toNat ≤ 175)
    (h : scanBytes p r = scanBytes p r') : r = r' := by
  have hj : r.toNat / 4 < 44 := by omega
  have hget := congrArg (·[r.toNat / 4]?) h
  simp only [scanBytes_getElem? p _ hj, Option.some.injEq] at hget
  exact row_eq_of_scanByte_eq hnd hne hget

/-- The places of the scan bytes that are not 0 are the one place of the row, and 0 to 43 holds it once. -/
theorem scanBytes_filter_length {p : Params} (hne : ∀ v ∈ p.scanPattern.toList, v ≠ 0) {r : BitVec 8}
    (hr : r.toNat ≤ 175) : ((scanBytes p r).filter (fun v => v != 0)).length = 1 := by
  have hmem : r.toNat / 4 ∈ List.range 44 := List.mem_range.2 (by omega)
  rw [← List.countP_eq_length_filter, scanBytes, List.countP_map]
  calc (List.range 44).countP ((fun v => v != 0) ∘ scanByte p r)
      = (List.range 44).count (r.toNat / 4) := List.countP_congr fun j _ => by simpa using scanByte_ne_zero_iff hne r j
    _ = 1 := List.count_eq_one_of_mem List.nodup_range hmem

/-! ### The steps that build a line (R106) -/

theorem updateStep_row {s : State} {k : StageKind} (hpc : s.pc = .row) (hk : currentStage s = some k) :
    updateStep s = .next (startRow k s) := by
  simp [updateStep, hpc, hk]

theorem updateStep_encode {s : State} {k : StageKind} (hpc : s.pc = .encode) (hk : currentStage s = some k) :
    updateStep s = .next (buildLine k s) := by
  simp [updateStep, hpc, hk]

/-! ### The obligations -/

/-- Settles O37: a column's bit pair is its code, and distinct codes tell the two colours apart. -/
theorem pixelsRoundTrip : Obligations.PixelsRoundTrip := by
  refine ⟨fun p => ⟨rfl, rfl, rfl, rfl⟩, fun p r src c hc => ?_, fun p r m src c hp hc => ?_⟩
  · rw [lineCode_image p r .norm src hc, lineCode_image p r .inv src hc, code_colorOf, code_colorOf]
    exact ⟨rfl, rfl⟩
  · rw [lineCode_image p r m src hc]
    exact pixelOfCode_code_colorOf hp m (pixel src c)

/-- Settles O38: a data byte is its four codes, which a uniform source takes to be u whatever the row holds. -/
theorem uniformLines : Obligations.UniformLines :=
  ⟨fun p r u src _ hb => ⟨lineList_even p r (.uniform u) src hb, lineList_odd p r (.uniform u) src hb⟩,
    fun _ _ _ _ _ => rfl, by decide, by decide, rfl, rfl⟩

/-- Settles O39: the place of the scan byte that is not 0 gives r div 4, and its pattern r mod 4. -/
theorem scanSelectsOneRow : Obligations.ScanSelectsOneRow :=
  fun _ hnd hne => ⟨fun _ _ hr _ => scanBytes_injective hnd hne hr, fun _ => scanBytes_filter_length hne⟩

/-- Settles O40, by cases on the stage kind where the row begins. -/
theorem lineIsEncoded : Obligations.LineIsEncoded := by
  refine ⟨fun p => ⟨rfl, rfl⟩, fun s temp r i k hi hb hk => ?_⟩
  have hstage : currentStage s = some k := hk
  rw [exec_update_running hb hi]
  refine ⟨fun hpc => ?_, fun hpc => updateStep_encode hpc hstage⟩
  rw [updateStep_row hpc hstage]
  cases k <;> rfl

end Sys2Proof.Machine

end

section
/-! O29, O30, O32: the temperature buckets, the stage duration, and what an update latches. -/

namespace Sys2Proof.Machine

/-! ### The temperature lookup (R79, R111, R112) -/

/-- A temperature is in bucket k or below exactly when it is at most breakpoint k (R111: each breakpoint belongs to the
bucket below it). -/
theorem bucket_le_iff (t : Int) :
    ((bucket t).toNat ≤ 0 ↔ t ≤ -10) ∧ ((bucket t).toNat ≤ 1 ↔ t ≤ -5) ∧ ((bucket t).toNat ≤ 2 ↔ t ≤ 5) ∧
    ((bucket t).toNat ≤ 3 ↔ t ≤ 10) ∧ ((bucket t).toNat ≤ 4 ↔ t ≤ 15) ∧ ((bucket t).toNat ≤ 5 ↔ t ≤ 20) ∧
    ((bucket t).toNat ≤ 6 ↔ t ≤ 40) := by
  unfold bucket
  split_ifs <;> simp <;> omega

theorem bucket_mono {t u : Int} (h : t ≤ u) : (bucket t).toNat ≤ (bucket u).toNat := by
  have ht := bucket_le_iff t
  have hu := bucket_le_iff u
  have hlt := (bucket t).isLt
  omega

/-- Sign extension keeps the signed value of the field (R79). -/
theorem degrees_eq_toInt (temp : BitVec 16) : degrees temp = temp.toInt :=
  BitVec.toInt_signExtend_of_le (by decide)

/-! ### The stage duration (R113, R114, R115) -/

/-- The 32-bit product does not wrap, so the duration is the quotient of the numbers. -/
theorem stageDuration_toNat (p : Params) (m : Mode) (i : BitVec 3) :
    (stageDuration p m i).toNat = (scale p m).toNat * (factor p i).toNat / 10 := by
  have hprod : (scale p m).toNat * (factor p i).toNat < 2 ^ 32 := BitVec.toNat_mul_toNat_lt
  rw [stageDuration, BitVec.toNat_udiv, BitVec.toNat_mul, BitVec.toNat_setWidth_of_le (by decide),
    BitVec.toNat_setWidth_of_le (by decide), Nat.mod_eq_of_lt hprod]
  rfl

/-! ### What an update latches (R116, R130) -/

/-- What no ENGINE step but the latch writes: its part of the update context, K aside (the stage loop moves K
on), LAST_TEMP and STAGE_MS. -/
structure Latched where
  modeL : Mode
  tempL : BitVec 16
  bucketL : BitVec 3
  stageMsL : Word
  fbBaseL : Word
  timeoutL : Word
  lastTemp : Word
  stageMs : Word

def State.latched (s : State) : Latched :=
  ⟨s.upd.modeL, s.upd.tempL, s.upd.bucketL, s.upd.stageMsL, s.upd.fbBaseL, s.upd.timeoutL, s.lastTemp, s.stageMs⟩

@[simp] theorem emit_latched (a : Act) (s : State) : (emit a s).latched = s.latched := by
  simp [State.latched]

@[simp] theorem emitReadBusy_latched (s : State) : (emitReadBusy s).latched = s.latched := by
  simp [State.latched]

@[simp] theorem evalCheck_latched (c : Check) (next : Pc) (s : State) : (evalCheck c next s).latched = s.latched := by
  rcases evalCheck_cases c next s with ⟨-, e⟩ | ⟨-, e⟩ <;> rw [e] <;> rfl

@[simp] theorem nextRow_latched (s : State) : (nextRow s).latched = s.latched := by
  unfold nextRow
  split <;> rfl

@[simp] theorem endPass_latched (s : State) : (endPass s).latched = s.latched := by
  unfold endPass
  split
  · rfl
  · split <;> rfl

/-- No move of the engine but the latch writes these values. -/
theorem EngineMove.latched {s t : State} (h : EngineMove s t) (hl : s.pc ≠ .latch) : t.latched = s.latched := by
  cases h with
  | latch hpc => exact absurd hpc hl
  | emit a p => exact emit_latched a s
  | evalCheck c next => exact evalCheck_latched c next s
  | sampleFault | sampleGoto => exact emitReadBusy_latched s
  | sampleNextRow => simp
  | passEnd => exact endPass_latched s
  | stay | goto | complete | startPowerUp | startPowerDown | endPowerUp | endPowerDown | stageStart | fetch | encode
  | waitStart => rfl

theorem hostWrite_latched {off : Nat} {v : Word} {s t : State} (h : hostWrite off v s = .next t) :
    t.latched = s.latched := by
  rcases hostWrite_cases h with ⟨-, hb, he⟩ | rfl | rfl | rfl | rfl | rfl | rfl
  · rcases exec_idle hb (decodeWord v) with e | e <;> cases e.symm.trans he <;> rfl
  all_goals rfl

theorem hostTurn_latched {s t : State} (h : hostTurn s = .next t) : t.latched = s.latched := by
  rcases hostTurn_cases h with rfl | ⟨off, f, u, rfl | ⟨rest, rfl⟩, rfl⟩ | ⟨off, v, rest, hw⟩ | ⟨a, v, rest, rfl⟩
  · rfl
  · rfl
  · rfl
  · exact hostWrite_latched (s := { s with host := rest }) hw
  · rfl

theorem takeTurn_latched {u : Turn} {s t : State} (h : takeTurn u s = .next t) (hr : u ≠ .rst)
    (hl : ¬ (u = .engine ∧ s.pc = .latch)) : t.latched = s.latched := by
  cases u with
  | host => exact hostTurn_latched h
  | engine => exact (engineTurn_move h).latched fun hpc => hl ⟨rfl, hpc⟩
  | clock => cases h; rfl
  | rst => exact absurd rfl hr
  | short => cases shortTurn_eq h; rfl

/-! ### The obligations -/

/-- Settles O29: a bucket's range is between the breakpoints of the bucket below and of its own. -/
theorem bucketRanges : Obligations.BucketRanges := by
  refine ⟨fun t => ?_, fun _ _ => bucket_mono, fun temp => ?_⟩
  · have hle := bucket_le_iff t
    have hlt := (bucket t).isLt
    simp only [← BitVec.toNat_inj, BitVec.reduceToNat]
    omega
  · rw [degrees_eq_toInt]
    exact ⟨rfl, BitVec.le_toInt temp, Int.le_of_lt_add_one (BitVec.toInt_lt (x := temp))⟩

/-- Settles O30. -/
theorem stageDurationExact : Obligations.StageDurationExact :=
  fun p i => ⟨stageDuration_toNat p .full i, stageDuration_toNat p .partialUpd i,
    BitVec.toNat_mul_toNat_lt, BitVec.toNat_mul_toNat_lt, rfl, rfl, rfl⟩

/-- Settles O32, by cases on the turn: of the moves an ENGINE turn can make, the latch alone writes these values. -/
theorem latchHolds : Obligations.LatchHolds := by
  intro s t u h hr hl
  simpa [State.latched] using takeTurn_latched h hr hl

end Sys2Proof.Machine

end

section
/-! O22, O24, O25, O26: the self-test table, and how the power commands begin, evaluate a check, and end their lists. -/

namespace Sys2Proof.Machine

/-! ### The steps of a power command outside its lists (R89, R122, R123, R125) -/

theorem powerUpStep_dispatch {s : State} (h : s.pc = .dispatch) : powerUpStep s = .next (dispatchPowerUp s) := by
  simp [powerUpStep, h]

theorem powerDownStep_dispatch {s : State} (h : s.pc = .dispatch) : powerDownStep s = .next (dispatchPowerDown s) := by
  simp [powerDownStep, h]

theorem dispatchPowerUp_off {s : State} (h : s.session = .off) : dispatchPowerUp s = startPowerUp s := by
  simp [dispatchPowerUp, h]

theorem dispatchPowerUp_faulted {s : State} (h : s.session = .faulted) : dispatchPowerUp s = startPowerDown s := by
  simp [dispatchPowerUp, h]

theorem dispatchPowerDown_powered {s : State} (h : s.session = .ready ∨ s.session = .faulted) :
    dispatchPowerDown s = startPowerDown s := by
  rcases h with h | h <;> simp [dispatchPowerDown, h]

theorem powerUpStep_puStart {s : State} (h : s.pc = .puStart) : powerUpStep s = .next (startPowerUp s) := by
  simp [powerUpStep, h]

section Complete

variable {s : State} {kind : Kind} {check : BitVec 2} {stage : BitVec 4} {line : BitVec 8}
  (h : s.pc = .complete kind check stage line)
include h

theorem powerUpStep_complete : powerUpStep s = .next (complete kind check stage line s) := by
  simp [powerUpStep, commonStep, h]

theorem powerDownStep_complete : powerDownStep s = .next (complete kind check stage line s) := by
  simp [powerDownStep, commonStep, h]

end Complete

/-! ### The ends of the lists and of a check (R119 to R121) -/

/-- After its last step a list goes on to what follows it. -/
theorem runList_done {l : List SeqStep} {i : Nat} (h : l[i - 1]? = none) (at_ : Nat → Nat → Pc) (done : State → State)
    (ev : Nat) (s : State) : runList l at_ done i ev s = done s := by
  simp [runList, h]

section EvalCheck

variable {c : Check} {s : State}

theorem evalCheck_pass (h : checkPasses c s.rx = true) (next : Pc) : evalCheck c next s =
    { s with selfTest := s.selfTest.evaluate c true, stRaw := rawWith s.stRaw c s.rx, pc := next } := by
  rcases evalCheck_cases c next s with ⟨-, e⟩ | ⟨hfail, -⟩
  · exact e
  · simp [h] at hfail

theorem evalCheck_fail (h : checkPasses c s.rx = false) (next : Pc) : evalCheck c next s =
    { s with
      selfTest := { s.selfTest.evaluate c false with valid := true }
      stRaw := rawWith s.stRaw c s.rx
      session := .faulted
      pc := .complete .selftestFailure (checkCode c) 0 0 } := by
  rcases evalCheck_cases c next s with ⟨hpass, -⟩ | ⟨-, e⟩
  · simp [h] at hpass
  · exact e

end EvalCheck

/-- The ENGINE step of POWER_UP after a check's read exchange is the check's evaluation (R119). -/
theorem powerUpStep_check {s : State} {i ev : Nat} {c : Check} (hpc : s.pc = .pu i ev)
    (hst : (puList s.par)[i - 1]? = some (.check c)) (hev : 8 ≤ ev) :
    powerUpStep s = .next (evalCheck c (.pu (i + 1) 0) s) := by
  rw [powerUpStep_pu hpc, runList_endStep hst hev, endStep]

/-! ### The obligations -/

/-- Settles O24: a check passes when its masked bits are the expected ones, and PU_LIST is written out. -/
theorem selfTestTable : Obligations.SelfTestTable := by
  refine ⟨fun v => ?_, rfl, rfl, rfl, fun p => ⟨rfl, rfl, rfl, rfl⟩, rfl, rfl, rfl⟩
  simp [checkPasses, checkMask, checkExpected]

/-- Settles O22: the session at DISPATCH chooses the list. -/
theorem powerCommandsStart : Obligations.PowerCommandsStart := by
  intro s x hb hpc
  rw [exec_powerUp_running hb, exec_powerDown_running hb, powerUpStep_dispatch hpc, powerDownStep_dispatch hpc]
  refine ⟨fun h => ?_, fun h => ?_, fun h => ?_⟩
  · rw [dispatchPowerUp_off h]; rfl
  · rw [dispatchPowerUp_faulted h]; rfl
  · rw [dispatchPowerDown_powered h]; rfl

/-- Settles O25: the outcome of the check decides between the next step of the list and the report of R142. -/
theorem checkIsEvaluated : Obligations.CheckIsEvaluated := by
  intro s x i ev c hb hpc hst hev
  rw [exec_powerUp_running hb, powerUpStep_check hpc hst hev]
  refine ⟨fun hpass => ?_, fun hfail => ?_, fun d => rawLane_rawWith ..⟩
  · rw [evalCheck_pass hpass]
    cases c <;> rfl
  · rw [evalCheck_fail hfail]
    refine ⟨_, _, rfl, (exec_powerUp_running (by exact hb) x).trans (powerUpStep_complete rfl), ?_, rfl⟩
    cases c <;> rfl

/-- Settles O26: past the last step of its list a command takes the closing assignments, and POWER_UP begins anew. -/
theorem listsEnd : Obligations.ListsEnd := by
  intro s x ev hb
  rw [exec_powerUp_running hb, exec_powerDown_running hb]
  refine ⟨fun hpc => ?_, fun hpc => ?_, fun hpc => ?_⟩
  · rw [powerUpStep_pu hpc, runList_done rfl]; rfl
  · rw [powerDownStep_pd hpc, runList_done rfl]; rfl
  · rw [powerUpStep_pd hpc, runList_done rfl]
    exact ⟨_, rfl, rfl, (exec_powerUp_running (by exact hb) x).trans (powerUpStep_puStart rfl)⟩

end Sys2Proof.Machine

end

section
/-! O27, O28, O60: the runs of POWER_UP and POWER_DOWN from DISPATCH to their completion. A run is followed at the list
steps by a snapshot of what the statements speak of, the time that passes while a delay holds aside. -/

namespace Sys2Proof.Machine

/-! ### Runs of ENGINE and CLOCK turns (R13, R15) -/

theorem runTurns_append {turns : List Turn} {s t : State} (h : runTurns turns s = .next t) (more : List Turn) :
    runTurns (turns ++ more) s = runTurns more t := by
  induction turns generalizing s with
  | nil => cases h; rfl
  | cons u turns ih =>
    simp only [runTurns, List.cons_append] at h ⊢
    cases hu : takeTurn u s with
    | next v => rw [hu] at h; exact ih h
    | fault f => rw [hu] at h; cases h
    | refused r => rw [hu] at h; cases h

/-- Some ENGINE and CLOCK turns lead from s to t. -/
def Reaches (s t : State) : Prop :=
  ∃ turns : List Turn, (∀ u ∈ turns, u = .engine ∨ u = .clock) ∧ runTurns turns s = .next t

theorem Reaches.trans {s t u : State} (h : Reaches s t) (h' : Reaches t u) : Reaches s u := by
  obtain ⟨turns, hturns, hrun⟩ := h
  obtain ⟨more, hmore, hrun'⟩ := h'
  exact ⟨turns ++ more, List.forall_mem_append.2 ⟨hturns, hmore⟩, (runTurns_append hrun more).trans hrun'⟩

theorem reaches_engine {s t : State} (h : engineTurn s = .next t) : Reaches s t :=
  ⟨[.engine], by simp, by simp [runTurns, takeTurn, h]⟩

theorem reaches_clock (m : Nat) (s : State) : Reaches s { s with now := s.now + BitVec.ofNat 32 m } :=
  ⟨List.replicate m .clock, fun _ h => .inr (List.eq_of_mem_replicate h), runTurns_clock m s⟩

/-- After some CLOCK turns no delay holds: the elapsed time is then the delay's length (R64). -/
theorem exists_clock_unheld (s : State) : ∃ m : Nat, held { s with now := s.now + BitVec.ofNat 32 m } = false := by
  refine ⟨(s.tDelay0 + s.nDelay - s.now).toNat, Bool.eq_false_iff.2 fun h => ?_⟩
  have hnow : s.now + BitVec.ofNat 32 (s.tDelay0 + s.nDelay - s.now).toNat =
      s.tDelay0 + BitVec.ofNat 32 s.nDelay.toNat := by
    rw [BitVec.ofNat_toNat, BitVec.ofNat_toNat, BitVec.setWidth_eq, BitVec.setWidth_eq, BitVec.add_comm,
      BitVec.sub_add_cancel]
  exact Nat.lt_irrefl _ ((held_iff_lt hnow (Nat.le_refl _)).1 h)

/-! ### What a power command keeps and what it changes -/

/-- What a power command leaves as it is before its completion, NOW and what no statement speaks of aside. -/
structure Standing where
  par : Params
  cur : Cur
  upd : UpdateCtx
  mem : Memory
  overrun : Bool
  result : Word
  busy : Bool

def State.standing (s : State) : Standing := ⟨s.par, s.cur, s.upd, s.mem, s.overrun, s.result, s.busy⟩

/-- What the steps of a power command change, the position and the delay latch aside. -/
structure Snapshot where
  session : Session
  selfTest : SelfTest
  stRaw : Word
  lines : Lines
  rx : Byte
  rxQueue : List Byte
  trace : List Event

def State.snapshot (s : State) : Snapshot := ⟨s.session, s.selfTest, s.stRaw, s.lines, s.rx, s.rxQueue, trace s⟩

/-- Whether an action takes an answer of the panel (R66). -/
def Act.isRead : Act → Bool
  | .read _ => true
  | .setLine _ _ => false
  | .write _ => false
  | .delay _ => false

/-- A snapshot after an action, the panel's answer to a read queued. -/
def Snapshot.emit (x : Snapshot) (a : Act) : Snapshot :=
  match a with
  | .setLine name level => { x with lines := setLevel x.lines name level, trace := a.event :: x.trace }
  | .read _ => { x with rx := x.rxQueue.headD x.rx, rxQueue := x.rxQueue.tail, trace := a.event :: x.trace }
  | .write _ => { x with trace := a.event :: x.trace }
  | .delay _ => { x with trace := a.event :: x.trace }

theorem emit_standing (a : Act) (s : State) : (emit a s).standing = s.standing := by
  simp [State.standing]

theorem emit_snapshot {a : Act} {s : State} (h : a.isRead = true → s.rxQueue ≠ []) :
    (Machine.emit a s).snapshot = s.snapshot.emit a := by
  cases a with
  | setLine name level => rfl
  | write tx => rfl
  | delay n => rfl
  | read tx =>
    obtain ⟨v, rest, hq⟩ := List.exists_cons_of_ne_nil (h rfl)
    simp [Machine.emit, emitRead, hq, State.snapshot, Snapshot.emit, trace, Act.event, Event.unbound]

/-- A snapshot after the events of a sequencer step (R117). -/
def Snapshot.ran (p : Params) (x : Snapshot) (st : SeqStep) : Snapshot := (st.acts p).foldl Snapshot.emit x

/-- A snapshot after check c is evaluated on the byte read (R119). -/
def Snapshot.evaluated (x : Snapshot) (c : Check) (pass : Bool) : Snapshot :=
  { x with selfTest := x.selfTest.evaluate c pass, stRaw := rawWith x.stRaw c x.rx }

/-- A snapshot after check c has failed (R119, R142). -/
def Snapshot.failed (x : Snapshot) (c : Check) : Snapshot :=
  { x.evaluated c false with session := .faulted, selfTest := { x.selfTest.evaluate c false with valid := true } }

/-- A snapshot after the assignments that begin a power-up (R122). -/
def Snapshot.startPowerUp (x : Snapshot) : Snapshot :=
  { x with session := .poweringUp, selfTest := SelfTest.cleared, stRaw := 0 }

/-- A snapshot after the assignments that end PU_LIST (R122). -/
def Snapshot.endPowerUp (x : Snapshot) : Snapshot :=
  { x with session := .ready, selfTest := { x.selfTest with valid := true } }

/-- A snapshot after the assignments that end PD_LIST (R123, R125). -/
def Snapshot.endPowerDown (x : Snapshot) : Snapshot :=
  { x with session := .off, selfTest := SelfTest.cleared, stRaw := 0 }

/-! ### Following a run by snapshots -/

/-- ENGINE and CLOCK turns lead from s to a state at position p with snapshot x, everything standing kept. -/
def Leads (s : State) (p : Pc) (x : Snapshot) : Prop :=
  ∃ t, Reaches s t ∧ t.standing = s.standing ∧ t.pc = p ∧ t.snapshot = x

/-- One ENGINE turn more, taken when no delay holds. -/
theorem Leads.turn {s : State} {p q : Pc} {x y : Snapshot} (h : Leads s p x)
    (next : ∀ t, held t = false → t.standing = s.standing → t.pc = p → t.snapshot = x →
      ∃ u, engineTurn t = .next u ∧ u.standing = t.standing ∧ u.pc = q ∧ u.snapshot = y) : Leads s q y := by
  obtain ⟨t, hreach, hst, hpc, hx⟩ := h
  obtain ⟨m, hm⟩ := exists_clock_unheld t
  obtain ⟨u, hu, hust, hupc, huy⟩ := next _ hm hst hpc hx
  exact ⟨u, (hreach.trans (reaches_clock m t)).trans (reaches_engine hu), hust.trans hst, hupc, huy⟩

/-- The command with this OP runs list l from the positions `at_`, with `done` after it. -/
def Sequences (op : BitVec 4) (l : Params → List SeqStep) (at_ : Nat → Nat → Pc) (done : State → State) : Prop :=
  ∀ (t : State) (i ev : Nat), t.busy = true → t.cur.op = op → t.pc = at_ i ev →
    engineTurn t = .next (runList (l t.par) at_ done i ev t)

theorem powerUp_sequences_puList : Sequences 1 puList .pu endPowerUp := fun _ _ _ hb hop hpc =>
  (engineTurn_powerUp hb hop).trans (powerUpStep_pu hpc)

theorem powerUp_sequences_pdList : Sequences 1 pdList .pd (endPowerDown .puStart) := fun _ _ _ hb hop hpc =>
  (engineTurn_powerUp hb hop).trans (powerUpStep_pd hpc)

theorem powerDown_sequences_pdList : Sequences 2 pdList .pd (endPowerDown (.complete .ok 0 0 0)) :=
  fun _ _ _ hb hop hpc => (engineTurn_powerDown hb hop).trans (powerDownStep_pd hpc)

section Sequences

variable {op : BitVec 4} {l : Params → List SeqStep} {at_ : Nat → Nat → Pc} {done : State → State}
  (hseq : Sequences op l at_ done) {s : State} (hb : s.busy = true) (hop : s.cur.op = op)
  {i : Nat} {st : SeqStep} {x : Snapshot}
include hseq hb hop

/-- One ENGINE turn more at a position of the list. -/
theorem Leads.listTurn {ev : Nat} {q : Pc} {y : Snapshot} (h : Leads s (at_ i ev) x)
    (next : ∀ t, held t = false → t.par = s.par → t.snapshot = x →
      (runList (l s.par) at_ done i ev t).standing = t.standing ∧
        (runList (l s.par) at_ done i ev t).pc = q ∧ (runList (l s.par) at_ done i ev t).snapshot = y) :
    Leads s q y := by
  refine h.turn fun t hheld hst hpc hx => ?_
  have hpar : t.par = s.par := congrArg Standing.par hst
  refine ⟨_, ?_, next t hheld hpar hx⟩
  rw [hseq t i ev ((congrArg Standing.busy hst).trans hb) ((congrArg (·.cur.op) hst).trans hop) hpc, hpar]

/-- The run emits what is left of a step's actions. -/
theorem Leads.acts {ev : Nat} {acts : List Act} (h : Leads s (at_ i ev) x) (hst : (l s.par)[i - 1]? = some st)
    (hacts : (st.acts s.par).drop ev = acts) (hreads : acts.countP Act.isRead ≤ x.rxQueue.length) :
    Leads s (at_ i (ev + acts.length)) (acts.foldl Snapshot.emit x) := by
  induction acts generalizing ev x with
  | nil => exact h
  | cons a acts ih =>
    have ha : (st.acts s.par)[ev]? = some a := by rw [← List.head?_drop, hacts, List.head?_cons]
    have hqueue : a.isRead = true → x.rxQueue ≠ [] := by
      rintro hread hnil
      simp [hread, hnil] at hreads
    have hrest : acts.countP Act.isRead ≤ (x.emit a).rxQueue.length := by
      cases a <;> simp [List.countP_cons, Act.isRead, Snapshot.emit] at hreads ⊢ <;> omega
    have hnext : Leads s (at_ i (ev + 1)) (x.emit a) := by
      refine Leads.listTurn hseq hb hop h fun t _ hpar hx => ?_
      subst hx
      rw [runList_emit hst (hpar ▸ ha)]
      exact ⟨emit_standing a t, rfl, emit_snapshot hqueue⟩
    have hdrop : (st.acts s.par).drop (ev + 1) = acts := by rw [← List.tail_drop, hacts, List.tail_cons]
    simpa [Nat.add_assoc, Nat.add_comm 1] using ih hnext hdrop hrest

/-- The run emits a step's actions, waits for its delay, and ends the step. -/
theorem Leads.step {q : Pc} {y : Snapshot} (h : Leads s (at_ i 0) x) (hst : (l s.par)[i - 1]? = some st)
    (hreads : (st.acts s.par).countP Act.isRead ≤ x.rxQueue.length)
    (hend : ∀ t, held t = false → t.snapshot = x.ran s.par st →
      (endStep st (at_ (i + 1) 0) t).standing = t.standing ∧ (endStep st (at_ (i + 1) 0) t).pc = q ∧
        (endStep st (at_ (i + 1) 0) t).snapshot = y) : Leads s q y := by
  refine Leads.listTurn hseq hb hop (Leads.acts hseq hb hop h hst rfl hreads) fun t hheld hpar hx => ?_
  rw [runList_endStep hst (by simp [hpar])]
  exact hend t hheld hx

/-- A CHECK that passes goes on to the next step of the list (R119). -/
theorem Leads.checkPass {c : Check} (h : Leads s (at_ i 0) x) (hst : (l s.par)[i - 1]? = some (.check c))
    (hqueue : x.rxQueue ≠ []) (hpass : checkPasses c (x.ran s.par (.check c)).rx = true) :
    Leads s (at_ (i + 1) 0) ((x.ran s.par (.check c)).evaluated c true) := by
  refine Leads.step hseq hb hop h hst (List.length_pos_iff.2 hqueue) fun t _ hx => ?_
  rw [endStep, evalCheck_pass ((congrArg (checkPasses c ·.rx) hx).trans hpass), ← hx]
  exact ⟨rfl, rfl, rfl⟩

/-- A CHECK that fails goes on to the report of the failure (R119, R144). -/
theorem Leads.checkFail {c : Check} (h : Leads s (at_ i 0) x) (hst : (l s.par)[i - 1]? = some (.check c))
    (hqueue : x.rxQueue ≠ []) (hfail : checkPasses c (x.ran s.par (.check c)).rx = false) :
    Leads s (.complete .selftestFailure (checkCode c) 0 0) ((x.ran s.par (.check c)).failed c) := by
  refine Leads.step hseq hb hop h hst (List.length_pos_iff.2 hqueue) fun t _ hx => ?_
  rw [endStep, evalCheck_fail ((congrArg (checkPasses c ·.rx) hx).trans hfail), ← hx]
  exact ⟨rfl, rfl, rfl⟩

/-- The run goes through the steps of a list that are no CHECK (R117). -/
theorem Leads.plain {seg rest : List SeqStep} (h : Leads s (at_ i 0) x) (hi : 1 ≤ i)
    (hseg : (l s.par).drop (i - 1) = seg ++ rest) (hplain : ∀ st ∈ seg, ∀ c, st ≠ .check c) :
    Leads s (at_ (i + seg.length) 0) (seg.foldl (Snapshot.ran s.par) x) := by
  induction seg generalizing i x with
  | nil => exact h
  | cons st seg ih =>
    have hst : (l s.par)[i - 1]? = some st := by rw [← List.head?_drop, hseg, List.cons_append, List.head?_cons]
    have hdrop : (l s.par).drop (i + 1 - 1) = seg ++ rest := by
      rw [show i + 1 - 1 = i - 1 + 1 by omega, ← List.tail_drop, hseg, List.cons_append, List.tail_cons]
    have hc := hplain st List.mem_cons_self
    have hreads : (st.acts s.par).countP Act.isRead = 0 := by
      cases st with
      | check c => exact absurd rfl (hc c)
      | line name level => rfl
      | wait n => rfl
      | regw idx val => rfl
    have hnext : Leads s (at_ (i + 1) 0) (x.ran s.par st) := by
      refine Leads.step hseq hb hop h hst (hreads ▸ Nat.zero_le _) fun t hheld hx => ?_
      rw [endStep_goto hc (fun _ _ => hheld)]
      exact ⟨rfl, rfl, hx⟩
    simpa [Nat.add_assoc, Nat.add_comm 1] using
      ih hnext (Nat.le_add_left 1 i) hdrop fun st hst => hplain st (List.mem_cons_of_mem _ hst)

/-- After its last step a list goes on to what follows it. -/
theorem Leads.listDone {q : Pc} {f : Snapshot → Snapshot} (h : Leads s (at_ i 0) x) (hlast : (l s.par)[i - 1]? = none)
    (hdone : ∀ t, (done t).standing = t.standing ∧ (done t).pc = q ∧ (done t).snapshot = f t.snapshot) :
    Leads s q (f x) := by
  refine Leads.listTurn hseq hb hop h fun t _ _ hx => ?_
  rw [runList_done hlast, ← hx]
  exact hdone t

end Sequences

/-- At COMPLETE one ENGINE turn is left: the completion (R89). -/
theorem Leads.completes {s : State} {kind : Kind} {check : BitVec 2} {stage : BitVec 4} {line : BitVec 8} {x : Snapshot}
    (h : Leads s (.complete kind check stage line) x) (hb : s.busy = true) (hop : s.cur.op = 1 ∨ s.cur.op = 2) :
    ∃ m, Reaches s m ∧ m.standing = s.standing ∧ m.snapshot = x ∧
      engineTurn m = .next (complete kind check stage line m) := by
  obtain ⟨m, hreach, hst, hpc, hx⟩ := h
  have hbm : m.busy = true := (congrArg Standing.busy hst).trans hb
  have hopm : m.cur.op = s.cur.op := congrArg (·.cur.op) hst
  refine ⟨m, hreach, hst, hx, ?_⟩
  rcases hop with hop | hop
  · rw [engineTurn_powerUp hbm (hopm.trans hop), powerUpStep_complete hpc]
  · rw [engineTurn_powerDown hbm (hopm.trans hop), powerDownStep_complete hpc]

/-! ### The lists of the spec (R120, R121) -/

/-- The whole of PD_LIST, from the lines of a powered panel (R121, R126). -/
theorem leads_pdList {op : BitVec 4} {next : Pc} (hseq : Sequences op pdList .pd (endPowerDown next)) {s : State}
    (hb : s.busy = true) (hop : s.cur.op = op) {st : SelfTest} {raw : Word} {rx : Byte} {queue : List Byte}
    {before : List Event} (h : Leads s (.pd 1 0) ⟨.poweringDown, st, raw, Lines.powered, rx, queue, before⟩) :
    Leads s next ⟨.off, SelfTest.cleared, 0, Lines.down, rx, queue,
      (listEvents s.par (pdList s.par)).reverse ++ before⟩ := by
  have hsteps := Leads.plain hseq hb hop (seg := pdList s.par) (rest := []) h (Nat.le_refl 1) rfl (by simp [pdList])
  exact Leads.listDone hseq hb hop (f := Snapshot.endPowerDown) hsteps rfl fun _ => ⟨rfl, rfl, rfl⟩

/-- The three byte lanes that the checks of a power-up write (R35). -/
theorem rawWith_all (v0 v1 v2 : Byte) :
    rawWith (rawWith (rawWith 0 .driverId v0) .breakage v1) .dcLevel v2 = (0 : BitVec 8) ++ v2 ++ v1 ++ v0 := by
  have hlane (d : Check) : rawLane (rawWith (rawWith (rawWith 0 .driverId v0) .breakage v1) .dcLevel v2) d =
      match d with
      | .driverId => v0
      | .breakage => v1
      | .dcLevel => v2 := by
    cases d <;> simp [rawLane_rawWith]
  have h0 := hlane .driverId
  have h1 := hlane .breakage
  have h2 := hlane .dcLevel
  simp only [rawLane] at h0 h1 h2
  rw [← bytesWord_lanes (rawWith _ _ _), h0, h1, h2, rawTop_rawWith, rawTop_rawWith, rawTop_rawWith]
  rfl

/-- ENGINE and CLOCK turns lead from s to the last ENGINE turn of a power-up, which ends as `powerUpEnds` says. -/
def CompletesPowerUp (s : State) (v0 v1 v2 : Byte) (before : List Event) : Prop :=
  ∃ m t, Reaches s m ∧ m.busy = true ∧ m.result = s.result ∧ engineTurn m = .next t ∧ t.busy = false ∧ t.pc = .idle ∧
    t.mem = s.mem ∧ t.overrun = s.overrun ∧ t.upd = s.upd ∧ t.par = s.par ∧ powerUpEnds v0 v1 v2 before t

/-- A snapshot within PU_LIST after its first k steps, the lines being those of a powered panel. -/
def puReached (p : Params) (k : Nat) (record : SelfTest) (raw : Word) (rx : Byte) (queue : List Byte)
    (before : List Event) : Snapshot :=
  ⟨.poweringUp, record, raw, Lines.powered, rx, queue, (listEvents p ((puList p).take k)).reverse ++ before⟩

section PowerUp

variable {s : State} (hb : s.busy = true) (hop : s.cur.op = 1) {rx v0 v1 v2 : Byte} {more : List Byte}
  {before : List Event}
include hb hop

theorem Leads.completesPowerUp {kind : Kind} {check : BitVec 2} {x : Snapshot} (h : Leads s (.complete kind check 0 0) x)
    (hends : ∀ t, t.par = s.par → t.result = resultWord 1 kind check 0 0 → t.snapshot = x →
      powerUpEnds v0 v1 v2 before t) : CompletesPowerUp s v0 v1 v2 before := by
  obtain ⟨m, hreach, hst, hx, hturn⟩ := h.completes hb (.inl hop)
  obtain ⟨hpar, hcur, hupd, hmem, hoverrun, hresult, hbusy⟩ := Standing.mk.inj hst
  exact ⟨m, _, hreach, hbusy.trans hb, hresult, hturn, rfl, rfl, hmem, hoverrun, hupd, hpar,
    hends _ hpar (by rw [complete_result, hcur, hop]) hx⟩

/-- PU_LIST up to the driver-ID check (R120). -/
theorem leads_driverId (h : Leads s (.pu 1 0)
      ⟨.poweringUp, SelfTest.cleared, 0, Lines.down, rx, v0 :: v1 :: v2 :: more, before⟩) :
    Leads s (.pu 9 0) (puReached s.par 8 (recordBefore 9) 0 rx (v0 :: v1 :: v2 :: more) before) :=
  Leads.plain powerUp_sequences_puList hb hop (seg := (puList s.par).take 8) h (Nat.le_refl 1) rfl (by simp [puList])

/-- PU_LIST from a passed driver-ID check to the breakage check (R120). -/
theorem leads_breakage (hpass : checkPasses .driverId v0 = true)
    (h : Leads s (.pu 9 0) (puReached s.par 8 (recordBefore 9) 0 rx (v0 :: v1 :: v2 :: more) before)) :
    Leads s (.pu 10 0)
      (puReached s.par 9 (recordBefore 10) (rawWith 0 .driverId v0) v0 (v1 :: v2 :: more) before) :=
  Leads.checkPass powerUp_sequences_puList hb hop h rfl nofun hpass

/-- PU_LIST from a passed breakage check to the DC level check (R120). -/
theorem leads_dcLevel {raw : Word} (hpass : checkPasses .breakage v1 = true)
    (h : Leads s (.pu 10 0) (puReached s.par 9 (recordBefore 10) raw v0 (v1 :: v2 :: more) before)) :
    Leads s (.pu 14 0)
      (puReached s.par 13 (recordBefore 14) (rawWith raw .breakage v1) v1 (v2 :: more) before) := by
  have hcheck : Leads s (.pu 11 0)
      (puReached s.par 10 (recordBefore 11) (rawWith raw .breakage v1) v1 (v2 :: more) before) :=
    Leads.checkPass powerUp_sequences_puList hb hop h rfl nofun hpass
  exact Leads.plain powerUp_sequences_puList hb hop (seg := ((puList s.par).drop 10).take 3) hcheck (by decide) rfl
    (by simp [puList])

/-- PU_LIST from a passed DC level check to its end (R120, R122). -/
theorem leads_endPowerUp {raw : Word} (hpass : checkPasses .dcLevel v2 = true)
    (h : Leads s (.pu 14 0) (puReached s.par 13 (recordBefore 14) raw v1 (v2 :: more) before)) :
    Leads s (.complete .ok 0 0 0)
      (puReached s.par 14 (recordBefore 15) (rawWith raw .dcLevel v2) v2 more before).endPowerUp :=
  Leads.listDone powerUp_sequences_puList hb hop
    (Leads.checkPass powerUp_sequences_puList hb hop h rfl nofun hpass) rfl fun _ => ⟨rfl, rfl, rfl⟩

/-- The power-up of R122 from the first step of PU_LIST: the first check that fails ends it, or the end of the list. -/
theorem completesPowerUp
    (h : Leads s (.pu 1 0) ⟨.poweringUp, SelfTest.cleared, 0, Lines.down, rx, v0 :: v1 :: v2 :: more, before⟩) :
    CompletesPowerUp s v0 v1 v2 before := by
  have hseq := powerUp_sequences_puList
  have h0 := leads_driverId hb hop h
  cases hv0 : checkPasses .driverId v0 with
  | false =>
    refine (Leads.checkFail hseq hb hop h0 rfl nofun hv0).completesPowerUp hb hop fun t hpar hres hx => ?_
    rw [powerUpEnds, if_pos hv0, hpar]
    exact ⟨hres, congrArg Snapshot.session hx, congrArg Snapshot.lines hx, congrArg Snapshot.trace hx⟩
  | true =>
  have h1 := leads_breakage hb hop hv0 h0
  have hv0' : ¬ checkPasses .driverId v0 = false := ne_of_eq_of_ne hv0 nofun
  cases hv1 : checkPasses .breakage v1 with
  | false =>
    refine (Leads.checkFail hseq hb hop h1 rfl nofun hv1).completesPowerUp hb hop fun t hpar hres hx => ?_
    rw [powerUpEnds, if_neg hv0', if_pos hv1, hpar]
    exact ⟨hres, congrArg Snapshot.session hx, congrArg Snapshot.lines hx, congrArg Snapshot.trace hx⟩
  | true =>
  have h2 := leads_dcLevel hb hop hv1 h1
  have hv1' : ¬ checkPasses .breakage v1 = false := ne_of_eq_of_ne hv1 nofun
  cases hv2 : checkPasses .dcLevel v2 with
  | false =>
    refine (Leads.checkFail hseq hb hop h2 rfl nofun hv2).completesPowerUp hb hop fun t hpar hres hx => ?_
    rw [powerUpEnds, if_neg hv0', if_neg hv1', if_pos hv2, hpar]
    exact ⟨hres, congrArg Snapshot.session hx, congrArg Snapshot.lines hx, congrArg Snapshot.trace hx⟩
  | true =>
    have hv2' : ¬ checkPasses .dcLevel v2 = false := ne_of_eq_of_ne hv2 nofun
    refine (leads_endPowerUp hb hop hv2 h2).completesPowerUp hb hop fun t hpar hres hx => ?_
    rw [powerUpEnds, if_neg hv0', if_neg hv1', if_neg hv2', hpar, ← rawWith_all]
    exact ⟨hres, congrArg Snapshot.session hx, congrArg Snapshot.lines hx, congrArg Snapshot.selfTest hx,
      congrArg Snapshot.stRaw hx, congrArg Snapshot.trace hx⟩

end PowerUp

/-! ### From DISPATCH (R122, R123, R125) -/

/-- A command stands at DISPATCH while BUSY is 1, on a panel whose lines are those of its session (R120, R121). -/
theorem Inv.at_dispatch {s : State} (h : Inv s) (hpc : s.pc = .dispatch) :
    s.busy = true ∧ (s.session = .off → s.lines = Lines.down) ∧
      (s.session = .ready ∨ s.session = .faulted → s.lines = Lines.powered) := by
  have hlines : s.lines = { sequencedLines s with cs := false } := by
    simpa [LinesInv, doneActs, hpc, csAfter] using h.lines
  refine ⟨?_, fun hs => ?_, ?_⟩
  · cases hb : s.busy with
    | true => rfl
    | false => exact absurd (h.busyIff.1 hb) (by simp [hpc])
  · simpa [sequencedLines, hpc, hs, Lines.down] using hlines
  · rintro (hs | hs) <;> simpa [sequencedLines, hpc, hs, Lines.powered] using hlines

section Dispatch

variable {s : State} (h : Inv s) (hpc : s.pc = .dispatch)
include h hpc

theorem Inv.leads_startPowerUp (hop : s.cur.op = 1) (hs : s.session = .off) : Leads s (.pu 1 0)
    ⟨.poweringUp, SelfTest.cleared, 0, Lines.down, s.rx, s.rxQueue, trace s⟩ := by
  obtain ⟨hb, hdown, -⟩ := h.at_dispatch hpc
  rw [← hdown hs]
  refine ⟨startPowerUp s, reaches_engine ?_, rfl, rfl, rfl⟩
  rw [engineTurn_powerUp hb hop, powerUpStep_dispatch hpc, dispatchPowerUp_off hs]

theorem Inv.leads_startPowerDown
    (hs : (s.cur.op = 1 ∧ s.session = .faulted) ∨ (s.cur.op = 2 ∧ (s.session = .ready ∨ s.session = .faulted))) :
    Leads s (.pd 1 0) ⟨.poweringDown, s.selfTest, s.stRaw, Lines.powered, s.rx, s.rxQueue, trace s⟩ := by
  obtain ⟨hb, -, hpowered⟩ := h.at_dispatch hpc
  have hturn : engineTurn s = .next (startPowerDown s) := by
    rcases hs with ⟨hop, hs⟩ | ⟨hop, hs⟩
    · rw [engineTurn_powerUp hb hop, powerUpStep_dispatch hpc, dispatchPowerUp_faulted hs]
    · rw [engineTurn_powerDown hb hop, powerDownStep_dispatch hpc, dispatchPowerDown_powered hs]
  rw [← hpowered (hs.elim (.inr ·.2) (·.2))]
  exact ⟨startPowerDown s, reaches_engine hturn, rfl, rfl, rfl⟩

end Dispatch

/-- The second phase of POWER_UP begins like a POWER_UP from Off (R123). -/
theorem Leads.puStart {s : State} {x : Snapshot} (h : Leads s .puStart x) (hb : s.busy = true) (hop : s.cur.op = 1) :
    Leads s (.pu 1 0) x.startPowerUp := by
  refine h.turn fun t _ hst hpc hx => ⟨startPowerUp t, ?_, rfl, rfl, hx ▸ rfl⟩
  rw [engineTurn_powerUp ((congrArg Standing.busy hst).trans hb) ((congrArg (·.cur.op) hst).trans hop),
    powerUpStep_puStart hpc]

/-! ### The obligations -/

/-- Settles O27: the power-up from the first step of PU_LIST, and PU_LIST's events written out. -/
theorem powerUpRuns : Obligations.PowerUpRuns := by
  refine ⟨fun s v0 v1 v2 more h hpc hop hs hq => ?_, fun p => ⟨rfl, rfl, rfl⟩⟩
  obtain ⟨hb, -⟩ := h.at_dispatch hpc
  obtain ⟨m, t, hreach, -, -, hturn, hends⟩ := completesPowerUp hb hop (hq ▸ h.leads_startPowerUp hpc hop hs)
  obtain ⟨turns, hturns, hrun⟩ := hreach.trans (reaches_engine hturn)
  exact ⟨turns, t, hturns, hrun, hends⟩

/-- Settles O60: PD_LIST first, then the power-up from the first step of PU_LIST. -/
theorem powerUpFromFaultedRuns : Obligations.PowerUpFromFaultedRuns := by
  intro s v0 v1 v2 more h hpc hop hs hq
  obtain ⟨hb, -⟩ := h.at_dispatch hpc
  have hdown := leads_pdList powerUp_sequences_pdList hb hop (h.leads_startPowerDown hpc (.inl ⟨hop, hs⟩))
  obtain ⟨m, t, ⟨turns, hturns, hrun⟩, hrest⟩ := completesPowerUp hb hop (hq ▸ hdown.puStart hb hop)
  exact ⟨turns, m, t, hturns, hrun, hrest⟩

/-- Settles O28: PD_LIST from its first step, and its completion. -/
theorem powerDownRuns : Obligations.PowerDownRuns := by
  intro s h hpc hop hs
  obtain ⟨hb, -⟩ := h.at_dispatch hpc
  have hdown := leads_pdList powerDown_sequences_pdList hb hop (h.leads_startPowerDown hpc (.inr ⟨hop, hs⟩))
  obtain ⟨m, hreach, hst, hx, hturn⟩ := hdown.completes hb (.inr hop)
  obtain ⟨turns, hturns, hrun⟩ := hreach.trans (reaches_engine hturn)
  have hopm : m.cur.op = 2 := (congrArg (·.cur.op) hst).trans hop
  exact ⟨turns, _, hturns, hrun, rfl, rfl, by rw [complete_result, hopm]; rfl, congrArg Snapshot.session hx,
    congrArg Snapshot.selfTest hx, congrArg Snapshot.stRaw hx, congrArg Snapshot.lines hx, congrArg Standing.mem hst,
    congrArg Standing.overrun hst, congrArg Snapshot.trace hx, rfl⟩

end Sys2Proof.Machine

end

section
/-! O31, O43, O44, O46, O47: the latch of an update, the steps of its busy waits and of its stage loop, and its end. -/

namespace Sys2Proof.Machine

/-! ### The steps of an update outside its frames and waits (R89, R128 to R131) -/

theorem updateStep_latch {s : State} (h : s.pc = .latch) : updateStep s = .next (latchUpdate s) := by
  simp [updateStep, h]

theorem updateStep_stageStart {s : State} (h : s.pc = .stageStart) : updateStep s = .next (startStage s) := by
  simp [updateStep, h]

theorem updateStep_passEnd {s : State} (h : s.pc = .passEnd) : updateStep s = .next (endPass s) := by
  simp [updateStep, h]

theorem updateStep_complete {s : State} {kind : Kind} {check : BitVec 2} {stage : BitVec 4} {line : BitVec 8}
    (h : s.pc = .complete kind check stage line) : updateStep s = .next (complete kind check stage line s) := by
  simp [updateStep, commonStep, h]

/-! ### LAST_TEMP (R33) -/

theorem lastTempWord_fields (b : BitVec 3) (temp : BitVec 16) :
    (lastTempWord b temp).extractLsb' 0 16 = temp ∧ (lastTempWord b temp).extractLsb' 16 3 = b ∧
      (lastTempWord b temp).extractLsb' 19 13 = 0 := by
  unfold lastTempWord
  refine ⟨BitVec.extractLsb'_append_eq_right .., ?_, ?_⟩
  · rw [BitVec.extractLsb'_append_eq_of_le (by decide)]
    exact BitVec.extractLsb'_append_eq_right ..
  · iterate 2 rw [BitVec.extractLsb'_append_eq_of_le (by decide)]
    rfl

/-! ### The sample of a busy wait (R63, R133) -/

/-- A sample adds its event, and takes its level from the queue or from the free values (R63). -/
theorem emitReadBusy_eq (s : State) : ∃ queue draws,
    emitReadBusy s = { s with events := .readBusy (busyLevel s) :: s.events, busyQueue := queue, draws := draws } :=
  ⟨_, _, emitReadBusy_frame s⟩

section Sample

variable {s : State} (stage : BitVec 4) (line : BitVec 8) (at_ : WaitPhase → Pc) (ret : State → State)

theorem busyWait_quiet (h : busyLevel s = false) :
    busyWait stage line at_ ret .sample s = ret (emitReadBusy s) :=
  if_neg (Bool.eq_false_iff.1 h)

theorem busyWait_timeout (h : busyLevel s = true) (ht : s.upd.timeoutL.toNat < (s.now - s.upd.tWait0).toNat) :
    busyWait stage line at_ ret .sample s = faultSession .commTimeout 0 stage line (emitReadBusy s) :=
  (if_pos h).trans (if_pos ht)

theorem busyWait_poll (h : busyLevel s = true) (ht : (s.now - s.upd.tWait0).toNat ≤ s.upd.timeoutL.toNat) :
    busyWait stage line at_ ret .sample s = (emitReadBusy s).goto (at_ .delay) :=
  (if_pos h).trans (if_neg (Nat.not_lt.2 ht))

end Sample

/-- The stage and line a busy wait reports: K and R after a stage's line, 0 and 0 in the settle pass (R133, R136). -/
def waitStage (settle : Bool) (s : State) : BitVec 4 := if settle then 0 else s.upd.k

/-- The line beside `waitStage`. -/
def waitLine (settle : Bool) (s : State) : BitVec 8 := if settle then 0 else s.upd.r

/-- What follows a busy wait that returns (R131, R136). -/
def waitReturn (settle : Bool) (s : State) : State := if settle then s.goto (.complete .ok 0 0 0) else nextRow s

/-- The ENGINE step of an update at either busy wait, the two waits put as one (R133, R136). -/
theorem updateStep_busyWait {s : State} {settle : Bool} {w : WaitPhase} (h : s.pc = waitAt settle w) :
    updateStep s =
      .next (busyWait (waitStage settle s) (waitLine settle s) (waitAt settle) (waitReturn settle) w s) := by
  rw [updateStep_wait h]
  cases settle <;> rfl

theorem waitReturn_stage (s : State) : waitReturn false s = nextRow s := rfl

theorem nextRow_of_lt {s : State} (h : s.upd.r.toNat < 175) :
    nextRow s = { s with upd := { s.upd with r := s.upd.r + 1 }, pc := .row } :=
  if_pos h

theorem nextRow_last {s : State} (h : 175 ≤ s.upd.r.toNat) : nextRow s = s.goto .passEnd :=
  if_neg (Nat.not_lt.2 h)

/-! ### The end of a pass (R131) -/

section EndPass

variable {s : State}

theorem endPass_again (h : (s.now - s.upd.tStage0).toNat < s.upd.stageMsL.toNat) :
    endPass s = { s with upd := { s.upd with r := 0 }, pc := .row } :=
  if_pos h

theorem endPass_nextStage (h : s.upd.stageMsL.toNat ≤ (s.now - s.upd.tStage0).toNat)
    (hk : s.upd.k.toNat < (stagesOf s.par s.upd.modeL).length) :
    endPass s = { s with upd := { s.upd with k := s.upd.k + 1 }, pc := .stageStart } :=
  (if_neg (Nat.not_lt.2 h)).trans (if_pos hk)

theorem endPass_handshake (h : s.upd.stageMsL.toNat ≤ (s.now - s.upd.tStage0).toNat)
    (hk : (stagesOf s.par s.upd.modeL).length ≤ s.upd.k.toNat) : endPass s = s.goto (.handshake 0) :=
  (if_neg (Nat.not_lt.2 h)).trans (if_neg (Nat.not_lt.2 hk))

end EndPass

/-! ### The obligations -/

/-- Settles O31: the latch writes the packed word of LAST_TEMP, whose fields are the bucket and the temperature. -/
theorem updateLatches : Obligations.UpdateLatches := by
  intro s temp r i hi hb hpc
  rw [exec_update_running hb hi, updateStep_latch hpc, ← degrees_eq_toInt]
  exact ⟨latchUpdate s, rfl, rfl, rfl, (lastTempWord_fields ..).1, (lastTempWord_fields ..).2.1,
    (lastTempWord_fields ..).2.2, rfl⟩

/-- Settles O43, by the phase of the wait; a sample by its level, and a busy one by the bound. -/
theorem busyWaitSteps : Obligations.BusyWaitSteps := by
  intro s temp r i settle hi hb
  rw [exec_update_running hb hi]
  refine ⟨fun hpc => updateStep_busyWait hpc, fun hpc => ?_, fun hpc => updateStep_busyWait hpc,
    fun hpc => updateStep_busyWait hpc⟩
  refine ⟨_, updateStep_busyWait hpc, ?_⟩
  obtain ⟨queue, draws, hsample⟩ := emitReadBusy_eq s
  cases hlevel : busyLevel s with
  | false =>
    rw [busyWait_quiet _ _ _ _ hlevel]
    cases settle with
    | true =>
      rw [hsample, hlevel]
      exact ⟨rfl, rfl, fun _ => ⟨rfl, nofun, nofun, fun _ => ⟨rfl, rfl⟩⟩, nofun⟩
    | false =>
      rw [waitReturn_stage]
      by_cases hr : s.upd.r.toNat < 175
      · rw [nextRow_of_lt (by rwa [emitReadBusy_upd]), hsample, hlevel]
        exact ⟨rfl, rfl, fun _ => ⟨rfl, fun _ _ => ⟨rfl, rfl⟩, fun _ h => absurd hr (Nat.not_lt.2 h), nofun⟩, nofun⟩
      · rw [nextRow_last (by rw [emitReadBusy_upd]; exact Nat.not_lt.1 hr), hsample, hlevel]
        exact ⟨rfl, rfl, fun _ => ⟨rfl, fun _ h => absurd h hr, fun _ _ => ⟨rfl, rfl⟩, nofun⟩, nofun⟩
  | true =>
    by_cases ht : s.upd.timeoutL.toNat < (s.now - s.upd.tWait0).toNat
    · rw [busyWait_timeout _ _ _ _ hlevel ht, hsample, hlevel]
      have hbounded : s.upd.timeoutL ≠ 0xFFFFFFFF := by
        intro hmax
        have hlt := (s.now - s.upd.tWait0).isLt
        rw [hmax] at ht
        exact absurd ht (Nat.not_lt.2 (Nat.le_of_lt_succ hlt))
      refine ⟨rfl, rfl, nofun, fun _ => ⟨rfl, fun _ => ⟨rfl, ?_⟩, fun h => absurd ht (Nat.not_lt.2 h),
        fun h => absurd h hbounded⟩⟩
      cases settle <;> rfl
    · rw [busyWait_poll _ _ _ _ hlevel (Nat.not_lt.1 ht), hsample, hlevel]
      exact ⟨rfl, rfl, nofun, fun _ => ⟨rfl, fun h => absurd h ht, fun _ => ⟨rfl, rfl⟩, fun _ => ⟨rfl, rfl⟩⟩⟩

/-- Settles O44: the busy sample past the bound, then the report of R142. -/
theorem timeoutIsReported : Obligations.TimeoutIsReported := by
  intro s temp r i settle hi hb hpc hlevel ht
  obtain ⟨queue, draws, hsample⟩ := emitReadBusy_eq s
  let t := faultSession .commTimeout 0 (waitStage settle s) (waitLine settle s) (emitReadBusy s)
  have hbt : t.busy = true := (emitReadBusy_busy s).trans hb
  have hfirst : exec i s = .next t := by
    rw [exec_update_running hb hi, updateStep_busyWait hpc, busyWait_timeout _ _ _ _ hlevel ht]
  have hsecond : exec i t = .next (complete .commTimeout 0 (waitStage settle s) (waitLine settle s) t) := by
    rw [exec_update_running hbt hi, updateStep_complete rfl]
  have hcur : t.cur = s.cur := emitReadBusy_cur s
  refine ⟨t, _, hfirst, hbt, hsecond, ?_, ?_⟩
  · simp only [t, hsample, hlevel]
    rfl
  · rw [complete_result, hcur]
    refine ⟨resultValid_word .., resultKind_word .., resultOp_word .., resultCheck_word .., ?_, ?_⟩ <;> rintro rfl <;>
      exact ⟨resultStage_word .., resultLine_word ..⟩

/-- Settles O46: the stage's start, and the three ways a pass ends. -/
theorem stageLoop : Obligations.StageLoop := by
  intro s temp r i hi hb
  rw [exec_update_running hb hi]
  refine ⟨fun hpc => updateStep_stageStart hpc, fun hpc ht => ?_, fun hpc ht hk => ?_, fun hpc ht hk => ?_⟩ <;>
    rw [updateStep_passEnd hpc]
  · rw [endPass_again ht]
  · rw [endPass_nextStage ht hk]
  · rw [endPass_handshake ht hk]
    rfl

/-- Settles O47: the mode decides what follows the last event of the handshake. -/
theorem handshakeAndSettle : Obligations.HandshakeAndSettle := by
  intro s temp r i hi hb
  rw [exec_update_running hb hi]
  refine ⟨fun hpc => ?_, fun ev hpc hev => ?_, fun hpc hlevel => ?_, rfl⟩
  · rw [updateStep_handshake hpc, runFrame_done rfl, endHandshake]
    cases s.upd.modeL <;> rfl
  · rw [updateStep_settle hpc, runFrame_done (List.getElem?_eq_none hev)]
    rfl
  · obtain ⟨queue, draws, hsample⟩ := emitReadBusy_eq s
    have hstep : updateStep s = .next ((emitReadBusy s).goto (.complete .ok 0 0 0)) := by
      rw [updateStep_busyWait (settle := true) hpc, busyWait_quiet _ _ _ _ hlevel]
      rfl
    refine ⟨_, hstep, rfl, ?_⟩
    rw [hsample, hlevel]
    exact ⟨rfl, rfl, rfl, rfl⟩

end Sys2Proof.Machine

end

section
/-! O48: the run of an update from DISPATCH to its completion on a panel that is never busy. The run is followed by the
place it has come to, everything that stands through an update kept; a stage takes one pass, since CLOCK turns may use up
its duration at the pass's end. -/

namespace Sys2Proof.Machine

/-! ### What an update keeps and where it stands -/

/-- What an update leaves as it is from its latch to its completion, the level of CS within a frame aside. -/
structure Steady where
  par : Params
  cur : Cur
  latched : Latched
  mem : Memory
  fbBase : Word
  fbLen : Word
  session : Session
  selfTest : SelfTest
  stRaw : Word
  lines : Lines
  busy : Bool

def State.steady (s : State) : Steady :=
  ⟨s.par, s.cur, s.latched, s.mem, s.fbBase, s.fbLen, s.session, s.selfTest, s.stRaw, s.lines, s.busy⟩

/-- Where an update stands: its position, its stage K and row R (R39), and the busy levels still to come. -/
structure Place where
  pc : Pc
  k : Nat
  r : Nat
  queue : List Bool

def State.place (s : State) : Place := ⟨s.pc, s.upd.k.toNat, s.upd.r.toNat, s.busyQueue⟩

section Steady

variable {s t : State} (hst : t.steady = s.steady)
include hst

theorem modeL_of_steady : t.upd.modeL = s.upd.modeL := congrArg (·.latched.modeL) hst

/-- A running update still runs. -/
theorem engineTurn_of_steady (hb : s.busy = true) (hop : s.cur.op = 3) : engineTurn t = updateStep t :=
  engineTurn_update ((congrArg Steady.busy hst).trans hb) ((congrArg (·.cur.op) hst).trans hop)

theorem stagesOf_of_steady : stagesOf t.par t.upd.modeL = stagesOf s.par s.upd.modeL :=
  congrArg₂ stagesOf (congrArg Steady.par hst) (modeL_of_steady hst)

theorem currentStage_of_steady {k : Nat} {kind : StageKind}
    (hkind : (stagesOf s.par s.upd.modeL)[k - 1]? = some kind) (hk : t.upd.k.toNat = k) :
    currentStage t = some kind := by
  rw [currentStage, stagesOf_of_steady hst, hk, hkind]

end Steady

/-! ### A whole frame of an update (R65, R67) -/

/-- From s to t, at position p, these actions of a write frame are emitted: nothing changes but pc, the history by their
events, CS, and the free-value counter. -/
def Emitted (acts : List Act) (p : Pc) (s t : State) : Prop :=
  trace t = (acts.map Act.event).reverse ++ trace s ∧ ∃ events draws, t =
    { s with pc := p, events := events, lines := { s.lines with cs := csAfter acts s.lines.cs }, draws := draws }

theorem Emitted.snoc {acts : List Act} {p : Pc} {s t : State} (h : Emitted acts p s t) {a : Act}
    (ha : a.writesOrMovesCs) (q : Pc) : Emitted (acts ++ [a]) q s ((emit a t).goto q) := by
  obtain ⟨htrace, events, draws, ht⟩ := h
  obtain ⟨hchange, hcs⟩ := emit_goto_writesOrMovesCs ha t q
  refine ⟨by simp [(emit_goto_frame a t q).1, htrace], (emit a t).events, (emit a t).draws, ?_⟩
  rw [hchange, hcs, csAfter_append, ht]

/-- An update emits these write frames from these positions, with `done` after the last event; CS is 0 again then. -/
structure UpdateFrame (acts : Params → Vector Byte 111 → List Act) (at_ : Nat → Pc) (done : State → State) : Prop where
  step : ∀ (t : State) (ev : Nat), t.pc = at_ ev →
    updateStep t = .next (runFrame (acts t.par t.lineBuf) ev at_ done t)
  writes : ∀ p buf, ∀ a ∈ acts p buf, a.writesOrMovesCs
  csAtEnd : ∀ p buf, csAfter (acts p buf) false = false

theorem updateFrame_line :
    UpdateFrame (fun p buf => lineTx p buf.toList) .line (fun t => t.goto (.wait .start)) where
  step _ _ := updateStep_line
  writes p buf := lineTx_writesOrMovesCs p buf.toList
  csAtEnd p buf := csAfter_lineTx p buf.toList false

theorem updateFrame_handshake :
    UpdateFrame (fun p _ => regWrite p p.idxTxDone p.valTxDone) .handshake endHandshake where
  step _ _ := updateStep_handshake
  writes p _ := regWrite_writesOrMovesCs p p.idxTxDone p.valTxDone
  csAtEnd _ _ := rfl

theorem updateFrame_settle :
    UpdateFrame (fun p _ => lineTx p (dummyLine p)) .settle (fun t => t.goto (.settleWait .start)) where
  step _ _ := updateStep_settle
  writes p _ := lineTx_writesOrMovesCs p (dummyLine p)
  csAtEnd p _ := csAfter_lineTx p (dummyLine p) false

section Frame

variable {acts : Params → Vector Byte 111 → List Act} {at_ : Nat → Pc} {done : State → State}
  (hframe : UpdateFrame acts at_ done) {s : State} (hb : s.busy = true) (hop : s.cur.op = 3)
include hframe hb hop

/-- One ENGINE turn at event ev of a frame that began at s. -/
theorem UpdateFrame.engineTurn_eq {t : State} {ev : Nat} {l : List Act} (ht : Emitted l (at_ ev) s t) :
    engineTurn t = .next (runFrame (acts s.par s.lineBuf) ev at_ done t) := by
  obtain ⟨-, events, draws, ht⟩ := ht
  have hacts : acts t.par t.lineBuf = acts s.par s.lineBuf := by rw [ht]
  rw [engineTurn_update (by rw [ht]; exact hb) (by rw [ht]; exact hop), hframe.step t ev (by rw [ht]), hacts]

/-- The run emits the first n events of a frame. -/
theorem UpdateFrame.reaches_take (hpc : s.pc = at_ 0) {n : Nat} (hn : n ≤ (acts s.par s.lineBuf).length) :
    ∃ t, Reaches s t ∧ Emitted ((acts s.par s.lineBuf).take n) (at_ n) s t := by
  induction n with
  | zero => exact ⟨s, ⟨[], by simp, rfl⟩, rfl, s.events, s.draws, by rw [← hpc]; rfl⟩
  | succ n ih =>
    obtain ⟨t, hreach, ht⟩ := ih (Nat.le_of_succ_le hn)
    have hturn := hframe.engineTurn_eq hb hop ht
    rw [runFrame_emit (List.getElem?_eq_getElem hn)] at hturn
    refine ⟨_, hreach.trans (reaches_engine hturn), ?_⟩
    rw [← List.take_concat_get' _ _ hn]
    exact ht.snoc (hframe.writes _ _ _ (List.getElem_mem hn)) _

/-- The run emits a whole frame and stands before what follows it, the lines as before. -/
theorem UpdateFrame.reaches (hcs : s.lines.cs = false) (hpc : s.pc = at_ 0) :
    ∃ t, Reaches s t ∧ engineTurn t = .next (done t) ∧ t.steady = s.steady ∧ t.lineBuf = s.lineBuf ∧
      (∀ p, (t.goto p).place = ⟨p, s.upd.k.toNat, s.upd.r.toNat, s.busyQueue⟩) ∧
      trace t = ((acts s.par s.lineBuf).map Act.event).reverse ++ trace s := by
  obtain ⟨t, hreach, ht⟩ := hframe.reaches_take hb hop hpc (Nat.le_refl _)
  have hturn := hframe.engineTurn_eq hb hop ht
  rw [runFrame_done (List.getElem?_eq_none (Nat.le_refl _))] at hturn
  rw [List.take_length] at ht
  obtain ⟨htrace, events, draws, ht⟩ := ht
  refine ⟨t, hreach, hturn, ?_, by rw [ht], fun p => by rw [ht]; rfl, htrace⟩
  rw [ht, hcs, hframe.csAtEnd, ← hcs]
  rfl

end Frame

/-! ### Following a run by its places -/

/-- ENGINE and CLOCK turns lead from s to a state at place x, everything that stands through an update kept. -/
def Updates (s : State) (x : Place) : Prop := ∃ t, Reaches s t ∧ t.steady = s.steady ∧ t.place = x

/-- CLOCK turns use up the stage's duration (R43, R131). -/
theorem Updates.stageOver {s : State} {x : Place} (h : Updates s x) : ∃ t, Reaches s t ∧ t.steady = s.steady ∧
    t.place = x ∧ t.upd.stageMsL.toNat ≤ (t.now - t.upd.tStage0).toNat := by
  obtain ⟨t, hreach, hst, hx⟩ := h
  refine ⟨_, hreach.trans (reaches_clock (t.upd.tStage0 + t.upd.stageMsL - t.now).toNat t), hst, hx, ?_⟩
  have hover : t.now + BitVec.ofNat 32 (t.upd.tStage0 + t.upd.stageMsL - t.now).toNat - t.upd.tStage0 =
      t.upd.stageMsL := by
    rw [BitVec.ofNat_toNat, BitVec.setWidth_eq, BitVec.add_comm t.now, BitVec.sub_add_cancel, BitVec.add_comm,
      BitVec.add_sub_cancel]
  exact Nat.le_of_eq (congrArg BitVec.toNat hover).symm

/-- A sample takes the first level of the queue (R63). -/
theorem emitReadBusy_queued {s : State} {b : Bool} {queue : List Bool} (h : s.busyQueue = b :: queue) :
    busyLevel s = b ∧ emitReadBusy s = { s with events := .readBusy b :: s.events, busyQueue := queue } := by
  simp [busyLevel, emitReadBusy, h]

/-- A quiet sample returns from the wait (R133). -/
theorem updateStep_quiet {s : State} {settle : Bool} {queue : List Bool} (hpc : s.pc = waitAt settle .sample)
    (hq : s.busyQueue = false :: queue) : updateStep s =
      .next (waitReturn settle { s with events := .readBusy false :: s.events, busyQueue := queue }) := by
  obtain ⟨hlevel, hsample⟩ := emitReadBusy_queued hq
  rw [updateStep_busyWait hpc, busyWait_quiet _ _ _ _ hlevel, hsample]

/-- ENGINE and CLOCK turns lead from s to the completion with OK, everything that stands through an update kept; the last
frame of a Partial update is the handshake (R128, R135). -/
def UpdateEnds (s : State) : Prop :=
  ∃ t, Reaches s t ∧ t.steady = s.steady ∧ t.pc = .complete .ok 0 0 0 ∧
    (s.upd.modeL = .partialUpd → ∃ before,
      trace t = ((regWrite s.par s.par.idxTxDone s.par.valTxDone).map Act.event).reverse ++ before)

theorem endHandshake_full {s : State} (h : s.upd.modeL = .full) : endHandshake s = s.goto (.settle 0) := by
  simp [endHandshake, h]

theorem endHandshake_partial {s : State} (h : s.upd.modeL = .partialUpd) :
    endHandshake s = s.goto (.complete .ok 0 0 0) := by
  simp [endHandshake, h]

theorem updateStep_dispatch {s : State} (h : s.pc = .dispatch) : updateStep s = .next (validateUpdate s) := by
  simp [updateStep, h]

theorem validateUpdate_valid {s : State} (hs : s.session = .ready) (hlen : s.cur.fbl = 5808) :
    validateUpdate s = s.goto .latch := by
  simp [validateUpdate, imageBytes, hs, hlen]

section Updates

variable {s : State} (hb : s.busy = true) (hop : s.cur.op = 3) {k r : Nat} {queue : List Bool}
include hb hop

/-- One ENGINE turn more. -/
theorem Updates.turn {p q : Pc} {k' r' : Nat} {queue' : List Bool} (h : Updates s ⟨p, k, r, queue⟩)
    (next : ∀ t, t.steady = s.steady → t.pc = p → t.upd.k.toNat = k → t.upd.r.toNat = r → t.busyQueue = queue →
      ∃ u, updateStep t = .next u ∧ u.steady = t.steady ∧ u.place = ⟨q, k', r', queue'⟩) :
    Updates s ⟨q, k', r', queue'⟩ := by
  obtain ⟨t, hreach, hst, hx⟩ := h
  obtain ⟨hpc, hk, hr, hq⟩ := Place.mk.inj hx
  obtain ⟨u, hu, hust, hy⟩ := next t hst hpc hk hr hq
  exact ⟨u, hreach.trans (reaches_engine ((engineTurn_of_steady hst hb hop).trans hu)), hust.trans hst, hy⟩

/-- A whole frame, and the ENGINE turn to what follows it. -/
theorem Updates.frame {acts : Params → Vector Byte 111 → List Act} {at_ : Nat → Pc} {done : State → State}
    (hframe : UpdateFrame acts at_ done) (hcs : s.lines.cs = false) (h : Updates s ⟨at_ 0, k, r, queue⟩) :
    ∃ t before, Reaches s (done t) ∧ t.steady = s.steady ∧ (∀ p, (t.goto p).place = ⟨p, k, r, queue⟩) ∧
      trace t = ((acts s.par t.lineBuf).map Act.event).reverse ++ before := by
  obtain ⟨m, hreach, hst, hx⟩ := h
  obtain ⟨hpc, hk, hr, hq⟩ := Place.mk.inj hx
  obtain ⟨t, hrun, hturn, htst, hbuf, hy, htrace⟩ := hframe.reaches ((congrArg Steady.busy hst).trans hb)
    ((congrArg (·.cur.op) hst).trans hop) ((congrArg (·.lines.cs) hst).trans hcs) hpc
  have hpar : m.par = s.par := congrArg Steady.par hst
  refine ⟨t, trace m, (hreach.trans hrun).trans (reaches_engine hturn), htst.trans hst, fun p => ?_, ?_⟩
  · rw [hy, hk, hr, hq]
  · rw [htrace, hpar, hbuf]

/-- A whole frame with a fixed position after it. -/
theorem Updates.frameGoto {acts : Params → Vector Byte 111 → List Act} {at_ : Nat → Pc} {p : Pc}
    (hframe : UpdateFrame acts at_ (fun t => t.goto p)) (hcs : s.lines.cs = false)
    (h : Updates s ⟨at_ 0, k, r, queue⟩) : Updates s ⟨p, k, r, queue⟩ := by
  obtain ⟨t, -, hreach, hst, hplace, -⟩ := h.frame hb hop hframe hcs
  exact ⟨t.goto p, hreach, hst, hplace p⟩

/-! ### The busy waits (R133, R136) -/

/-- The busy wait up to its sample. -/
theorem Updates.waitStart {settle : Bool} (h : Updates s ⟨waitAt settle .start, k, r, queue⟩) :
    Updates s ⟨waitAt settle .sample, k, r, queue⟩ := by
  refine h.turn hb hop fun t _ hpc hk hr hq => ⟨_, updateStep_busyWait hpc, rfl, ?_⟩
  rw [← hk, ← hr, ← hq]
  rfl

/-- A quiet busy wait after a row's line, and the next row (R131). -/
theorem Updates.nextRow (hr : r < 175) (h : Updates s ⟨.wait .start, k, r, false :: queue⟩) :
    Updates s ⟨.row, k, r + 1, queue⟩ := by
  refine (h.waitStart hb hop (settle := false)).turn hb hop fun t _ hpc hk htr hq => ?_
  have hrow : (t.upd.r + 1).toNat = r + 1 := by bv_omega
  refine ⟨_, updateStep_quiet (settle := false) hpc hq, ?_⟩
  rw [waitReturn_stage, nextRow_of_lt (by exact htr ▸ hr), ← hk, ← hrow]
  exact ⟨rfl, rfl⟩

/-- A quiet busy wait after the last row's line, and the end of the pass (R131). -/
theorem Updates.passEnd (h : Updates s ⟨.wait .start, k, 175, false :: queue⟩) :
    Updates s ⟨.passEnd, k, 175, queue⟩ := by
  refine (h.waitStart hb hop (settle := false)).turn hb hop fun t _ hpc hk htr hq => ?_
  refine ⟨_, updateStep_quiet (settle := false) hpc hq, ?_⟩
  rw [waitReturn_stage, nextRow_last (by exact htr ▸ Nat.le_refl 175), ← hk, ← htr]
  exact ⟨rfl, rfl⟩

/-- A quiet settle wait, and the completion (R136). -/
theorem Updates.settled (h : Updates s ⟨.settleWait .start, k, r, false :: queue⟩) :
    Updates s ⟨.complete .ok 0 0 0, k, r, queue⟩ := by
  refine (h.waitStart hb hop (settle := true)).turn hb hop fun t _ hpc hk htr hq => ?_
  refine ⟨_, updateStep_quiet (settle := true) hpc hq, ?_⟩
  rw [← hk, ← htr]
  exact ⟨rfl, rfl⟩

/-! ### One row of a stage (R106, R131) -/

/-- The reads of a row from byte 32 - m on (R106). -/
theorem Updates.fetched {m b : Nat} (hm : b + m = 32) (h : Updates s ⟨.fetch b, k, r, queue⟩) :
    Updates s ⟨.encode, k, r, queue⟩ := by
  induction m generalizing b with
  | zero =>
    refine h.turn hb hop fun t _ hpc hk hr hq => ⟨_, updateStep_fetch hpc, rfl, ?_⟩
    rw [← hk, ← hr, ← hq, show b = 32 from hm]
    rfl
  | succ m ih =>
    have hlt : b < 32 := by omega
    refine ih (b := b + 1) (by omega) (h.turn hb hop fun t _ hpc hk hr hq => ⟨_, updateStep_fetch hpc, rfl, ?_⟩)
    rw [fetchByte, if_pos hlt, ← hk, ← hr, ← hq]
    rfl

section Stage

variable {kind : StageKind} (hkind : (stagesOf s.par s.upd.modeL)[k - 1]? = some kind) (hcs : s.lines.cs = false)
include hkind hcs

/-- A row of a stage up to its busy wait: an image stage reads the row first (R59, R106). -/
theorem Updates.row (h : Updates s ⟨.row, k, r, queue⟩) : Updates s ⟨.wait .start, k, r, queue⟩ := by
  have hstart : Updates s ⟨if isImageStage kind then .fetch 0 else .encode, k, r, queue⟩ :=
    h.turn hb hop fun t hst hpc hk hr hq =>
      ⟨_, updateStep_row hpc (currentStage_of_steady hst hkind hk), rfl, by rw [← hk, ← hr, ← hq]; rfl⟩
  have hencode : Updates s ⟨.encode, k, r, queue⟩ := by
    split at hstart
    · exact hstart.fetched hb hop (m := 32) rfl
    · exact hstart
  have hline : Updates s ⟨.line 0, k, r, queue⟩ :=
    hencode.turn hb hop fun t hst hpc hk hr hq =>
      ⟨_, updateStep_encode hpc (currentStage_of_steady hst hkind hk), rfl, by rw [← hk, ← hr, ← hq]; rfl⟩
  exact hline.frameGoto hb hop updateFrame_line hcs

/-- The rows of a pass from row 175 - m on, one quiet sample each. -/
theorem Updates.rows {m : Nat} (hm : r + m = 175)
    (h : Updates s ⟨.row, k, r, List.replicate (m + 1) false ++ queue⟩) : Updates s ⟨.passEnd, k, 175, queue⟩ := by
  induction m generalizing r with
  | zero =>
    obtain rfl : r = 175 := hm
    exact (h.row hb hop hkind hcs).passEnd hb hop
  | succ m ih =>
    exact ih (r := r + 1) (by omega) ((h.row hb hop hkind hcs).nextRow hb hop (by omega))

/-- A stage's one pass, from the stage's start (R131). -/
theorem Updates.stage (h : Updates s ⟨.stageStart, k, r, List.replicate 176 false ++ queue⟩) :
    Updates s ⟨.passEnd, k, 175, queue⟩ := by
  refine Updates.rows hb hop hkind hcs (m := 175) (r := 0) rfl (h.turn hb hop fun t _ hpc hk hr hq => ?_)
  refine ⟨_, updateStep_stageStart hpc, rfl, ?_⟩
  rw [← hk, ← hq]
  rfl

end Stage

/-! ### The stages (R131) -/

/-- The end of the last pass of a stage: the next stage, or the handshake after the last one. -/
theorem Updates.stageDone {n : Nat} (hn : (stagesOf s.par s.upd.modeL).length = n) (hn15 : n ≤ 15)
    (h : Updates s ⟨.passEnd, k, r, queue⟩) :
    (k < n → Updates s ⟨.stageStart, k + 1, r, queue⟩) ∧ (n ≤ k → Updates s ⟨.handshake 0, k, r, queue⟩) := by
  obtain ⟨t, hreach, hst, hx, hover⟩ := h.stageOver
  obtain ⟨hpc, hk, hr, hq⟩ := Place.mk.inj hx
  have hlen : (stagesOf t.par t.upd.modeL).length = n := (congrArg List.length (stagesOf_of_steady hst)).trans hn
  have hturn : engineTurn t = .next (endPass t) := (engineTurn_of_steady hst hb hop).trans (updateStep_passEnd hpc)
  have hend := hreach.trans (reaches_engine hturn)
  refine ⟨fun hlt => ⟨endPass t, hend, ?_⟩, fun hle => ⟨endPass t, hend, ?_⟩⟩
  · have hnext : (t.upd.k + 1).toNat = k + 1 := by bv_omega
    rw [endPass_nextStage hover (by rwa [hk, hlen]), ← hnext, ← hr, ← hq]
    exact ⟨hst, rfl⟩
  · rw [endPass_handshake hover (by rwa [hk, hlen]), ← hk, ← hr, ← hq]
    exact ⟨hst, rfl⟩

/-- One stage of the list, and what follows it. -/
theorem Updates.stageRuns {n : Nat} (hn : (stagesOf s.par s.upd.modeL).length = n) (hn15 : n ≤ 15)
    (hcs : s.lines.cs = false) (hk : 1 ≤ k ∧ k ≤ n)
    (h : Updates s ⟨.stageStart, k, r, List.replicate 176 false ++ queue⟩) :
    (k < n → Updates s ⟨.stageStart, k + 1, 175, queue⟩) ∧ (n ≤ k → Updates s ⟨.handshake 0, k, 175, queue⟩) := by
  have hlt : k - 1 < (stagesOf s.par s.upd.modeL).length := by omega
  exact (h.stage hb hop (List.getElem?_eq_getElem hlt) hcs).stageDone hb hop hn hn15

/-- The stages from stage n - m on, 176 quiet samples each, up to the handshake. -/
theorem Updates.stages {n m : Nat} (hn : (stagesOf s.par s.upd.modeL).length = n) (hn15 : n ≤ 15)
    (hcs : s.lines.cs = false) (hk : 1 ≤ k) (hm : k + m = n)
    (h : Updates s ⟨.stageStart, k, r, List.replicate (176 * (m + 1)) false ++ queue⟩) :
    Updates s ⟨.handshake 0, n, 175, queue⟩ := by
  induction m generalizing k r with
  | zero =>
    obtain rfl : k = n := hm
    exact (h.stageRuns hb hop hn hn15 hcs ⟨hk, Nat.le_refl k⟩).2 (Nat.le_refl k)
  | succ m ih =>
    rw [Nat.mul_succ, Nat.add_comm, List.replicate_add, List.append_assoc] at h
    exact ih (k := k + 1) (by omega) (by omega) ((h.stageRuns hb hop hn hn15 hcs (by omega)).1 (by omega))

/-! ### The end of an update (R128, R135, R136) -/

/-- From the handshake on: a Full update settles, a Partial one has the handshake as its last frame. -/
theorem Updates.handshake (hcs : s.lines.cs = false) (h : Updates s ⟨.handshake 0, k, r, false :: queue⟩) :
    UpdateEnds s := by
  obtain ⟨t, before, hreach, hst, hplace, htrace⟩ := h.frame hb hop updateFrame_handshake hcs
  cases hmode : s.upd.modeL with
  | full =>
    rw [endHandshake_full ((modeL_of_steady hst).trans hmode)] at hreach
    have hsettle : Updates s ⟨.settle 0, k, r, false :: queue⟩ := ⟨_, hreach, hst, hplace _⟩
    obtain ⟨u, hu, hust, hx⟩ := (hsettle.frameGoto hb hop updateFrame_settle hcs).settled hb hop
    exact ⟨u, hu, hust, congrArg Place.pc hx, fun hpartial => nomatch hmode.symm.trans hpartial⟩
  | partialUpd =>
    rw [endHandshake_partial ((modeL_of_steady hst).trans hmode)] at hreach
    exact ⟨_, hreach, hst, rfl, fun _ => ⟨before, htrace⟩⟩

end Updates

/-! ### From DISPATCH (R128 to R130) -/

/-- A valid update takes two ENGINE turns to its first stage: the validation and the latch (R129, R130). -/
theorem reaches_latchUpdate {s : State} (hb : s.busy = true) (hpc : s.pc = .dispatch) (hop : s.cur.op = 3)
    (hs : s.session = .ready) (hlen : s.cur.fbl = 5808) : Reaches s (latchUpdate (s.goto .latch)) := by
  have hvalid : engineTurn s = .next (s.goto .latch) := by
    rw [engineTurn_update hb hop, updateStep_dispatch hpc, validateUpdate_valid hs hlen]
  have hlatch : engineTurn (s.goto .latch) = .next (latchUpdate (s.goto .latch)) :=
    (engineTurn_update (s := s.goto .latch) hb hop).trans (updateStep_latch rfl)
  exact (reaches_engine hvalid).trans (reaches_engine hlatch)

/-- A stage list of well-formed parameters has 1 to 15 stages (R11). -/
theorem stagesOf_length {p : Params} (h : p.wf = true) (m : Mode) :
    1 ≤ (stagesOf p m).length ∧ (stagesOf p m).length ≤ 15 := by
  obtain ⟨-, -, hfull, hpartial⟩ := (params_wf_iff p).1 h
  cases m
  · exact hfull
  · exact hpartial

/-! ### The obligation -/

/-- Settles O48: the latch, the stages one after the other, the handshake with what follows it, and the completion. -/
theorem updateRuns : Obligations.UpdateRuns := by
  intro s quiet h hpc hop hs hlen hqueue
  obtain ⟨hb, -, hpowered⟩ := h.at_dispatch hpc
  have hcs : s.lines.cs = false := by rw [hpowered (.inl hs)]; rfl
  obtain ⟨hn1, hn15⟩ := stagesOf_length h.parameters (modeOfBit s.cur.mode)
  obtain ⟨m, hm⟩ := Nat.exists_eq_add_of_le hn1
  have hlatch := reaches_latchUpdate hb hpc hop hs hlen
  have hq : s.busyQueue = List.replicate (176 * (m + 1)) false ++ false :: quiet := by
    rw [hqueue, hm, Nat.add_comm 1 m, List.replicate_succ', List.append_assoc, List.singleton_append]
  have hstart : Updates (latchUpdate (s.goto .latch)) ⟨.stageStart, 1, s.upd.r.toNat,
      List.replicate (176 * (m + 1)) false ++ false :: quiet⟩ :=
    ⟨_, ⟨[], by simp, rfl⟩, rfl, by rw [← hq]; rfl⟩
  have hbusyAt : (latchUpdate (s.goto .latch)).busy = true := hb
  have hopAt : (latchUpdate (s.goto .latch)).cur.op = 3 := hop
  obtain ⟨t, hreach, hst, htpc, hlast⟩ :=
    (hstart.stages hbusyAt hopAt rfl hn15 hcs (Nat.le_refl 1) hm.symm).handshake hbusyAt hopAt hcs
  obtain ⟨hpar, hcur, hlatched, hmem, hfbBase, hfbLen, hsession, htest, hraw, hlines, hbusy⟩ := Steady.mk.inj hst
  have hturn : engineTurn t = .next (complete .ok 0 0 0 t) := by
    rw [engineTurn_of_steady hst hbusyAt hopAt, updateStep_complete htpc]
  obtain ⟨turns, hturns, hrun⟩ := (hlatch.trans hreach).trans (reaches_engine hturn)
  have hresult : (complete .ok 0 0 0 t).result = 0x83000000 := by
    rw [complete_result, hcur]
    exact (congrArg (resultWord · .ok 0 0 0) hop).trans rfl
  rw [← degrees_eq_toInt]
  exact ⟨turns, _, hturns, hrun, rfl, rfl, hresult, hsession.trans hs, hlines, htest, hraw, hmem, hfbBase, hfbLen,
    congrArg Latched.lastTemp hlatched, congrArg Latched.stageMs hlatched, fun hmode => hlast (congrArg modeOfBit hmode)⟩

end Sys2Proof.Machine

end

section
/-! O21: the commands turned away at DISPATCH, and what their one ENGINE step leaves unchanged. -/

namespace Sys2Proof.Machine

/-! ### The sessions and the length a command is refused for (R122, R125, R129) -/

theorem dispatchPowerUp_ready {s : State} (h : s.session = .ready) :
    dispatchPowerUp s = complete .notReady 0 0 0 s := by
  simp [dispatchPowerUp, h]

theorem dispatchPowerDown_off {s : State} (h : s.session = .off) :
    dispatchPowerDown s = complete .notReady 0 0 0 s := by
  simp [dispatchPowerDown, h]

theorem validateUpdate_notReady {s : State} (h : s.session ≠ .ready) :
    validateUpdate s = complete .notReady 0 0 0 s := by
  simp [validateUpdate, h]

theorem validateUpdate_badLength {s : State} (hs : s.session = .ready) (hlen : s.cur.fbl ≠ imageBytes) :
    validateUpdate s = complete .invalidInput 0 0 0 s := by
  simp [validateUpdate, hs, hlen]

/-! ### The first ENGINE step of a command (R89) -/

theorem exec_update_dispatch {s : State} (hb : s.busy = true) (hpc : s.pc = .dispatch) {i : Instr} {temp : BitVec 16}
    {r : BitVec 11} (hi : i = .updateFull temp r ∨ i = .updatePartial temp r) :
    exec i s = .next (validateUpdate s) :=
  (exec_update_running hb hi).trans (updateStep_dispatch hpc)

/-- R146: the three commands that find the session not the one they expect complete with NOT_READY. -/
theorem exec_notReady {s : State} (hb : s.busy = true) (hpc : s.pc = .dispatch) {i : Instr}
    (hi : ((∃ t r, i = .updateFull t r ∨ i = .updatePartial t r) ∧ s.session ≠ .ready) ∨
      ((∃ x, i = .powerDown x) ∧ s.session = .off) ∨ ((∃ x, i = .powerUp x) ∧ s.session = .ready)) :
    exec i s = .next (complete .notReady 0 0 0 s) := by
  obtain ⟨⟨temp, r, hupdate⟩, hs⟩ | ⟨⟨x, rfl⟩, hs⟩ | ⟨⟨x, rfl⟩, hs⟩ := hi
  · rw [exec_update_dispatch hb hpc hupdate, validateUpdate_notReady hs]
  · rw [exec_powerDown_running hb, powerDownStep_dispatch hpc, dispatchPowerDown_off hs]
  · rw [exec_powerUp_running hb, powerUpStep_dispatch hpc, dispatchPowerUp_ready hs]

/-- What a completion with no detail fields sets and keeps: RESULT, BUSY and pc change, and the race record ends. -/
theorem complete_report (kind : Kind) (s : State) :
    complete kind 0 0 0 s = { s with
      result := resultWord s.cur.op kind 0 0 0, busy := false, pc := .idle, race := (complete kind 0 0 0 s).race } ∧
    resultKind (complete kind 0 0 0 s).result = kind.code ∧ resultValid (complete kind 0 0 0 s).result = 1 ∧
    resultOp (complete kind 0 0 0 s).result = s.cur.op :=
  ⟨rfl, resultKind_word .., resultValid_word .., resultOp_word ..⟩

/-! ### The obligation -/

/-- Settles O21: a refused command's first step is `complete`, and an update tests the session before the length. -/
theorem notReadyAndInvalidInput : Obligations.NotReadyAndInvalidInput := by
  intro s hb hpc
  refine ⟨fun i hi => ⟨_, exec_notReady hb hpc hi, complete_report .notReady s⟩, fun temp r i hi hs => ?_⟩
  have hstep := exec_update_dispatch hb hpc hi
  refine ⟨fun hlen => ?_, fun hlen => ?_⟩
  · rw [validateUpdate_badLength hs hlen] at hstep
    exact ⟨_, hstep, complete_report .invalidInput s⟩
  · rw [hstep, validateUpdate_valid hs hlen]
    rfl

end Sys2Proof.Machine

end

section
/-! O10: the reset, and what the HOST reads after it. -/

namespace Sys2Proof.Machine

/-! ### The registers at their reset values (R163, R164) -/

/-- Every register of the window that the HOST can read holds its reset value. -/
structure RegistersAtReset (s : State) : Prop where
  status : statusWord s = 0
  result : s.result = 0
  fbBase : s.fbBase = 0
  fbLen : s.fbLen = 0
  busyTimeout : s.busyTimeout = s.par.busyTimeoutReset
  lastTemp : s.lastTemp = 0
  stageMs : s.stageMs = 0
  stRaw : s.stRaw = 0

/-- STATUS reads 0 of an idle engine in Off with no overrun and no self-test record (R24, R164). -/
theorem statusWord_eq_zero {s : State} (hsession : s.session = .off) (hbusy : s.busy = false)
    (hoverrun : s.overrun = false) (hrecord : s.selfTest = SelfTest.cleared) : statusWord s = 0 := by
  rw [statusWord, hsession, hbusy, hoverrun, hrecord]
  decide

theorem registersAtReset_hardReset (s : State) : RegistersAtReset (hardReset s) where
  status := statusWord_eq_zero rfl rfl rfl rfl
  result := rfl
  fbBase := rfl
  fbLen := rfl
  busyTimeout := rfl
  lastTemp := rfl
  stageMs := rfl
  stRaw := rfl

theorem registersAtReset_resetWith (p : Params) : RegistersAtReset (State.resetWith p) where
  status := statusWord_eq_zero rfl rfl rfl rfl
  result := rfl
  fbBase := rfl
  fbLen := rfl
  busyTimeout := rfl
  lastTemp := rfl
  stageMs := rfl
  stRaw := rfl

/-! ### What the HOST reads of them (R22, R164) -/

/-- The HOST reads BUSY_TIMEOUT_RESET in the register BUSY_TIMEOUT_MS and 0 in every other one. -/
theorem RegistersAtReset.readReg {s : State} (h : RegistersAtReset s) (r : Reg) :
    readReg r s = if r.offset = 0x14 then s.par.busyTimeoutReset else 0 := by
  cases r with
  | cmd => rfl
  | status => exact h.status
  | result => exact h.result
  | fbBase => exact h.fbBase
  | fbLen => exact h.fbLen
  | busyTimeout => exact h.busyTimeout
  | lastTemp => exact h.lastTemp
  | stageMs => exact h.stageMs
  | stRaw => exact h.stRaw

/-- The same by offset: a reserved offset is not BUSY_TIMEOUT_MS's and reads 0. -/
theorem RegistersAtReset.hostRead {s : State} (h : RegistersAtReset s) (off : Nat) :
    hostRead off s = if off = 0x14 then s.par.busyTimeoutReset else 0 := by
  unfold Machine.hostRead
  cases hr : regAt off with
  | none =>
    have hoff : off ≠ 0x14 := by
      rintro rfl
      cases hr
    exact (if_neg hoff).symm
  | some r =>
    rw [offset_of_regAt hr]
    exact h.readReg r

/-! ### The obligation -/

/-- Settles O10: a reset is one turn whose next state is `hardReset`, and both reset states hold the values of R164. -/
theorem resetTakesEffect : Obligations.ResetTakesEffect := by
  refine ⟨fun s => ?_, fun p off => (registersAtReset_resetWith p).hostRead off⟩
  have hreset := registersAtReset_hardReset s
  exact ⟨hardReset s, rfl, hreset.status, hreset.result, hreset.fbBase, hreset.fbLen, hreset.busyTimeout,
    hreset.lastTemp, hreset.stageMs, hreset.stRaw, rfl, rfl, rfl, rfl, rfl, rfl, rfl, rfl, rfl, rfl, rfl,
    hreset.hostRead⟩

end Sys2Proof.Machine

end

section
/-! O49, O52, O57: what an ENGINE turn does to a state of the invariant, position by position. -/

namespace Sys2Proof.Machine

/-! ### One ENGINE turn from a position of the invariant (R88, R122, R125, R128) -/

/-- What an ENGINE turn makes of a state of the invariant with a command in flight, by its position. -/
inductive Advance (s : State) : State → Prop where
  | reported (kind : Kind) (check : BitVec 2) (stage : BitVec 4) (line : BitVec 8) :
    s.pc = .complete kind check stage line → Advance s (complete kind check stage line s)
  | refused (kind : Kind) : s.pc = .dispatch → Advance s (complete kind 0 0 0 s)
  | startPowerUp : s.cur.op = 1 → s.session = .off → s.pc = .dispatch ∨ s.pc = .puStart → Advance s (startPowerUp s)
  | startPowerDown : s.pc = .dispatch →
    (s.cur.op = 1 ∧ s.session = .faulted) ∨ (s.cur.op = 2 ∧ (s.session = .ready ∨ s.session = .faulted)) →
    Advance s (startPowerDown s)
  | puList (i ev : Nat) : s.cur.op = 1 → s.session = .poweringUp → 1 ≤ i → s.pc = .pu i ev →
    Advance s (runList (puList s.par) .pu endPowerUp i ev s)
  | pdList (next : Pc) (i ev : Nat) : (s.cur.op = 1 ∧ next = .puStart) ∨ (s.cur.op = 2 ∧ next = .complete .ok 0 0 0) →
    s.session = .poweringDown → 1 ≤ i → s.pc = .pd i ev →
    Advance s (runList (pdList s.par) .pd (endPowerDown next) i ev s)
  | validated : s.cur.op = 3 → s.session = .ready → s.pc = .dispatch → Advance s (s.goto .latch)
  | update {t : State} : s.cur.op = 3 → s.session = .ready → isUpdatePc s.pc = true → updateStep s = .next t →
    Advance s t

theorem settled_iff (session : Session) :
    session.settled = true ↔ session = .off ∨ session = .ready ∨ session = .faulted := by
  cases session <;> simp [Session.settled]

theorem dispatchPowerUp_advance {s : State} (hpc : s.pc = .dispatch) (hop : s.cur.op = 1)
    (hs : s.session = .off ∨ s.session = .ready ∨ s.session = .faulted) : Advance s (dispatchPowerUp s) := by
  rcases hs with hs | hs | hs
  · exact dispatchPowerUp_off hs ▸ .startPowerUp hop hs (.inl hpc)
  · exact dispatchPowerUp_ready hs ▸ .refused _ hpc
  · exact dispatchPowerUp_faulted hs ▸ .startPowerDown hpc (.inl ⟨hop, hs⟩)

theorem dispatchPowerDown_advance {s : State} (hpc : s.pc = .dispatch) (hop : s.cur.op = 2)
    (hs : s.session = .off ∨ s.session = .ready ∨ s.session = .faulted) : Advance s (dispatchPowerDown s) := by
  rcases hs with hs | hs
  · exact dispatchPowerDown_off hs ▸ .refused _ hpc
  · exact dispatchPowerDown_powered hs ▸ .startPowerDown hpc (.inr ⟨hop, hs⟩)

theorem validateUpdate_advance {s : State} (hpc : s.pc = .dispatch) (hop : s.cur.op = 3) :
    Advance s (validateUpdate s) := by
  by_cases hs : s.session = .ready
  · by_cases hlen : s.cur.fbl = imageBytes
    · exact validateUpdate_valid hs hlen ▸ .validated hop hs hpc
    · exact validateUpdate_badLength hs hlen ▸ .refused _ hpc
  · exact validateUpdate_notReady hs ▸ .refused _ hpc

theorem opStep_dispatch_advance {s t : State} (hpc : s.pc = .dispatch) (hop : s.cur.op ≠ 0)
    (hs : s.session = .off ∨ s.session = .ready ∨ s.session = .faulted) (h : opStep s.cur.op s = .next t) :
    Advance s t := by
  unfold opStep at h
  rw [if_neg hop] at h
  split_ifs at h with h1 h2 h3
  · cases (powerUpStep_dispatch hpc).symm.trans h
    exact dispatchPowerUp_advance hpc h1 hs
  · cases (powerDownStep_dispatch hpc).symm.trans h
    exact dispatchPowerDown_advance hpc h2 hs
  · cases (updateStep_dispatch hpc).symm.trans h
    exact validateUpdate_advance hpc h3
  · cases (reservedStep_dispatch hpc).symm.trans h
    exact .refused _ hpc

theorem reservedStep_complete {s : State} {kind : Kind} {check : BitVec 2} {stage : BitVec 4} {line : BitVec 8}
    (hpc : s.pc = .complete kind check stage line) : reservedStep s = .next (complete kind check stage line s) := by
  simp [reservedStep, commonStep, hpc]

theorem opStep_at_complete {s : State} {op : BitVec 4} (hop : op ≠ 0) {kind : Kind} {check : BitVec 2}
    {stage : BitVec 4} {line : BitVec 8} (hpc : s.pc = .complete kind check stage line) :
    opStep op s = .next (complete kind check stage line s) := by
  rw [opStep, if_neg hop]
  split_ifs
  · exact powerUpStep_complete hpc
  · exact powerDownStep_complete hpc
  · exact updateStep_complete hpc
  · exact reservedStep_complete hpc

theorem op_of_outcomeFits {op : BitVec 4} {kind : Kind} {session : Session} (h : outcomeFits op kind session = true) :
    op ≠ 0 := by
  rintro rfl
  simp [outcomeFits] at h

/-- What an ENGINE turn can do in a state of the invariant with a command in flight. -/
theorem Inv.advance {s t : State} (h : Inv s) (hb : s.busy = true) (ht : engineTurn s = .next t) : Advance s t := by
  have hpos := h.position
  unfold PositionInv at hpos
  cases hpc : s.pc <;>
    simp only [hpc, positionFits, Bool.and_eq_true, Bool.or_eq_true, beq_iff_eq, bne_iff_ne, decide_eq_true_eq] at hpos
  case idle => simp [h.busyIff.2 hpc] at hb
  case dispatch =>
    obtain ⟨hop, hs⟩ := hpos
    exact opStep_dispatch_advance hpc hop ((settled_iff _).1 hs) ((engineTurn_running hb).symm.trans ht)
  case complete kind check stage line =>
    rw [engineTurn_running hb, opStep_at_complete (op_of_outcomeFits hpos) hpc] at ht
    cases ht
    exact .reported _ _ _ _ hpc
  case pd i ev =>
    obtain ⟨⟨hop | hop, hs⟩, hi⟩ := hpos
    · cases ((engineTurn_powerUp hb hop).trans (powerUpStep_pd hpc)).symm.trans ht
      exact .pdList _ i ev (.inl ⟨hop, rfl⟩) hs hi hpc
    · cases ((engineTurn_powerDown hb hop).trans (powerDownStep_pd hpc)).symm.trans ht
      exact .pdList _ i ev (.inr ⟨hop, rfl⟩) hs hi hpc
  case pu i ev =>
    obtain ⟨⟨hop, hs⟩, hi⟩ := hpos
    cases ((engineTurn_powerUp hb hop).trans (powerUpStep_pu hpc)).symm.trans ht
    exact .puList i ev hop hs hi hpc
  case puStart =>
    obtain ⟨hop, hs⟩ := hpos
    cases ((engineTurn_powerUp hb hop).trans (powerUpStep_puStart hpc)).symm.trans ht
    exact .startPowerUp hop hs (.inr hpc)
  all_goals
    obtain ⟨⟨hp, hop⟩, hs⟩ := hpos
    exact .update hop hs (hpc ▸ hp) ((engineTurn_update hb hop).symm.trans ht)

end Sys2Proof.Machine

end

section
/-! O49: the lines and the self-test record along the two step lists, as the invariant asks them. -/

namespace Sys2Proof.Machine

/-! ### What the invariant asks of the lines and of the record (R42, R120, R121) -/

/-- The five lines other than CS while the sequencer stands at step i, event ev of PU_LIST (R120). -/
def puLines (i ev : Nat) : Lines where
  cs := false
  reset := performed i ev 5 && !performed i ev 7
  discharge := false
  enable := performed i ev 2
  border := performed i ev 4
  ioEnable := performed i ev 1

/-- The five lines other than CS while the sequencer stands at step i, event ev of PD_LIST (R121). -/
def pdLines (i ev : Nat) : Lines where
  cs := false
  reset := false
  discharge := performed i ev 3 && !performed i ev 5
  enable := !performed i ev 8
  border := !performed i ev 6
  ioEnable := !performed i ev 9

/-- The five lines other than CS while no list runs (R120, R121). -/
def Session.lines : Session → Lines
  | .ready | .faulted => Lines.powered
  | .off | .poweringUp | .poweringDown => Lines.down

/-- What the self-test record holds in a session while PU_LIST does not run (R27). -/
def Session.admits : Session → SelfTest → Bool
  | .off, record => record == SelfTest.cleared
  | .ready, record => record == SelfTest.good
  | .faulted, record | .poweringDown, record => record.valid
  | .poweringUp, _ => true

/-- Whether the position is in neither step list. -/
def outsideLists : Pc → Bool
  | .pu _ _ | .pd _ _ => false
  | _ => true

section ByPosition

variable {s : State}

theorem sequencedLines_outsideLists (h : outsideLists s.pc = true) : sequencedLines s = s.session.lines := by
  unfold sequencedLines
  split
  · next hpc => simp [outsideLists, hpc] at h
  · next hpc => simp [outsideLists, hpc] at h
  · cases s.session <;> rfl

theorem linesInv_outsideLists (h : outsideLists s.pc = true) :
    LinesInv s ↔ s.lines = { s.session.lines with cs := csAfter (doneActs s) false } := by
  rw [LinesInv, sequencedLines_outsideLists h]

theorem recordFits_outside_puList (h : ∀ i ev, s.pc ≠ .pu i ev) : recordFits s = s.session.admits s.selfTest := by
  unfold recordFits
  split
  · next hpc => exact absurd hpc (h _ _)
  · cases s.session <;> rfl

theorem sessionRecordInv_outsideLists (h : outsideLists s.pc = true) :
    SessionRecordInv s ↔ s.session.admits s.selfTest = true := by
  rw [SessionRecordInv, recordFits_outside_puList fun i ev hpc => by simp [outsideLists, hpc] at h]

variable {i ev : Nat}

theorem linesInv_pu (h : s.pc = .pu i ev) : LinesInv s ↔ s.lines = { puLines i ev with
    cs := csAfter ((((puList s.par)[i - 1]?.map (SeqStep.acts s.par)).getD []).take ev) false } := by
  simp only [LinesInv, sequencedLines, doneActs, h, puLines]

theorem linesInv_pd (h : s.pc = .pd i ev) : LinesInv s ↔ s.lines = { pdLines i ev with
    cs := csAfter ((((pdList s.par)[i - 1]?.map (SeqStep.acts s.par)).getD []).take ev) false } := by
  simp only [LinesInv, sequencedLines, doneActs, h, pdLines]

theorem linesInv_pu_begin (h : s.pc = .pu i 0) : LinesInv s ↔ s.lines = { puLines i 0 with cs := false } := by
  rw [linesInv_pu h, List.take_zero]
  rfl

theorem linesInv_pd_begin (h : s.pc = .pd i 0) : LinesInv s ↔ s.lines = { pdLines i 0 with cs := false } := by
  rw [linesInv_pd h, List.take_zero]
  rfl

theorem sessionRecordInv_pu (h : s.pc = .pu i ev) : SessionRecordInv s ↔ s.selfTest = recordBefore i := by
  simp [SessionRecordInv, recordFits, h]

theorem sessionRecordInv_pd (h : s.pc = .pd i ev) : SessionRecordInv s ↔ s.session.admits s.selfTest = true := by
  rw [SessionRecordInv, recordFits_outside_puList (by simp [h])]

end ByPosition

/-! ### The lines along a step list (R117, R120, R121) -/

theorem setLevel_cs {name : LineName} (h : name ≠ .cs) (l : Lines) (level c : Bool) :
    setLevel { l with cs := c } name level = { setLevel l name level with cs := c } := by
  cases name with
  | cs => exact absurd rfl h
  | reset | discharge | enable | border | ioEnable => rfl

/-- Any action moves CS as `csAfter` says. -/
theorem emit_cs (a : Act) (s : State) : (emit a s).lines.cs = csAfter [a] s.lines.cs := by
  rw [emit_lines]
  cases a with
  | setLine name level => cases name <;> rfl
  | write | read | delay => rfl

/-- An action that drives no line but CS. -/
def Act.drivesOnlyCs : Act → Prop
  | .setLine name _ => name = .cs
  | .write _ | .read _ | .delay _ => True

theorem emit_drivesOnlyCs {a : Act} (h : a.drivesOnlyCs) (s : State) :
    (emit a s).lines = { s.lines with cs := csAfter [a] s.lines.cs } := by
  rw [← emit_cs, emit_lines]
  cases a with
  | setLine name level =>
    obtain rfl : name = .cs := h
    rfl
  | write | read | delay => rfl

theorem acts_drivesOnlyCs {st : SeqStep} (h : ∀ name level, st ≠ .line name level) (p : Params) :
    ∀ a ∈ st.acts p, a.drivesOnlyCs := by
  cases st with
  | line name level => exact absurd rfl (h name level)
  | wait n => simp [SeqStep.acts, Act.drivesOnlyCs]
  | regw idx val => simp [SeqStep.acts, regWrite, Act.drivesOnlyCs]
  | check c => simp [SeqStep.acts, regRead, Act.drivesOnlyCs]

/-- CS is 0 after each step that is no drive of CS itself (R65, R66). -/
theorem csAfter_acts {st : SeqStep} (h : ∀ level, st ≠ .line .cs level) (p : Params) :
    csAfter (st.acts p) false = false := by
  cases st with
  | line name level =>
    cases name with
    | cs => exact absurd rfl (h level)
    | reset | discharge | enable | border | ioEnable => rfl
  | wait | regw | check => rfl

theorem csAfter_take_succ {acts : List Act} {ev : Nat} {a : Act} (h : acts[ev]? = some a) (c : Bool) :
    csAfter (acts.take (ev + 1)) c = csAfter [a] (csAfter (acts.take ev) c) := by
  rw [List.take_add_one, h, Option.toList_some, csAfter_append]

/-- These are the levels a step list drives, by step and event: step i drives its line with its first event, and nothing
else moves a line but CS. -/
structure Drives (l : List SeqStep) (levels : Nat → Nat → Lines) : Prop where
  line : ∀ i name level, 1 ≤ i → l[i - 1]? = some (.line name level) →
    name ≠ .cs ∧ levels i 1 = setLevel (levels i 0) name level
  other : ∀ i st ev, 1 ≤ i → l[i - 1]? = some st → (∀ name level, st ≠ .line name level) → levels i ev = levels i 0
  next : ∀ i ev, 1 ≤ ev → levels (i + 1) 0 = levels i ev

section Drives

variable {l : List SeqStep} {levels : Nat → Nat → Lines} (hl : Drives l levels) {i ev : Nat} (hi : 1 ≤ i)
  {st : SeqStep} (hst : l[i - 1]? = some st) {s : State}
  (hlines : s.lines = { levels i ev with cs := csAfter ((st.acts s.par).take ev) false })
include hl hi hst hlines

/-- Each event of a step moves the lines to the next index. -/
theorem Drives.emit {a : Act} (ha : (st.acts s.par)[ev]? = some a) :
    (emit a s).lines = { levels i (ev + 1) with cs := csAfter ((st.acts s.par).take (ev + 1)) false } := by
  by_cases hline : ∃ name level, st = .line name level
  · obtain ⟨name, level, rfl⟩ := hline
    obtain ⟨rfl, rfl⟩ : ev = 0 ∧ Act.setLine name level = a := by
      simpa [SeqStep.acts, List.getElem?_singleton] using ha
    obtain ⟨hname, hlevel⟩ := hl.line i name level hi hst
    have hcs : csAfter ((SeqStep.acts s.par (.line name level)).take (0 + 1)) false = false := if_neg hname
    rw [emit_lines, hlines, hlevel, hcs]
    exact setLevel_cs hname _ level false
  · have hother : ∀ name level, st ≠ .line name level := fun name level h => hline ⟨name, level, h⟩
    rw [emit_drivesOnlyCs (acts_drivesOnlyCs hother _ a (List.mem_of_getElem? ha)), hlines, csAfter_take_succ ha,
      hl.other i st ev hi hst hother, hl.other i st (ev + 1) hi hst hother]

/-- After the last event of a step the lines are those of the next step's beginning. -/
theorem Drives.stepDone (hev : (st.acts s.par).length ≤ ev) : s.lines = { levels (i + 1) 0 with cs := false } := by
  have hcs : ∀ level, st ≠ .line .cs level := by
    rintro level rfl
    exact (hl.line i .cs level hi hst).1 rfl
  have hpos : 1 ≤ (st.acts s.par).length := by cases st <;> simp [SeqStep.acts, regWrite, regRead]
  rw [hlines, List.take_of_length_le hev, csAfter_acts hcs, hl.next i ev (hpos.trans hev)]

end Drives

theorem performed_next {i ev : Nat} (h : 1 ≤ ev) (j : Nat) : performed (i + 1) 0 j = performed i ev j := by
  rw [Bool.eq_iff_iff]
  simp only [performed, Bool.or_eq_true, Bool.and_eq_true, decide_eq_true_eq]
  omega

theorem performed_of_ne {i j : Nat} (h : j ≠ i) (ev : Nat) : performed i ev j = performed i 0 j := by
  simp [performed, h]

theorem drives_puList (p : Params) : Drives (puList p) puLines where
  line i name level hi h := by
    obtain ⟨k, rfl⟩ := Nat.exists_eq_add_of_le' hi
    have hlt : k < 14 := (List.getElem?_eq_some_iff.1 h).1
    interval_cases k <;> cases h <;> exact ⟨nofun, rfl⟩
  other i st ev hi h hst := by
    have hne : ∀ j name level, (puList p)[j - 1]? = some (.line name level) → j ≠ i := by
      rintro j name level hj rfl
      exact hst name level (Option.some.inj (h.symm.trans hj))
    simp only [puLines, performed_of_ne (hne 1 _ _ rfl) ev, performed_of_ne (hne 2 _ _ rfl) ev,
      performed_of_ne (hne 4 _ _ rfl) ev, performed_of_ne (hne 5 _ _ rfl) ev, performed_of_ne (hne 7 _ _ rfl) ev]
  next i ev h := by simp only [puLines, performed_next h]

theorem drives_pdList (p : Params) : Drives (pdList p) pdLines where
  line i name level hi h := by
    obtain ⟨k, rfl⟩ := Nat.exists_eq_add_of_le' hi
    have hlt : k < 9 := (List.getElem?_eq_some_iff.1 h).1
    interval_cases k <;> cases h <;> exact ⟨nofun, rfl⟩
  other i st ev hi h hst := by
    have hne : ∀ j name level, (pdList p)[j - 1]? = some (.line name level) → j ≠ i := by
      rintro j name level hj rfl
      exact hst name level (Option.some.inj (h.symm.trans hj))
    simp only [pdLines, performed_of_ne (hne 3 _ _ rfl) ev, performed_of_ne (hne 5 _ _ rfl) ev,
      performed_of_ne (hne 6 _ _ rfl) ev, performed_of_ne (hne 8 _ _ rfl) ev, performed_of_ne (hne 9 _ _ rfl) ev]
  next i ev h := by simp only [pdLines, performed_next h]

/-! ### The record through a check (R27, R35, R119) -/

theorem recordInv_cleared {s : State} (hrecord : s.selfTest = SelfTest.cleared) (hraw : s.stRaw = 0) :
    RecordInv s := by
  rw [RecordInv, hrecord, hraw]
  decide

/-- A check writes its result bit with its byte, and leaves the bits and the byte of the others. -/
theorem recordInv_evalCheck {s : State} (h : RecordInv s) (c : Check) (next : Pc) : RecordInv (evalCheck c next s) := by
  obtain ⟨hid, hbreak, hdc, htop⟩ := h
  rcases evalCheck_cases c next s with ⟨hpass, e⟩ | ⟨hpass, e⟩ <;> rw [e] <;> cases c <;>
    simp_all [RecordInv, recordAgrees, SelfTest.evaluate, rawLane_rawWith, rawTop_rawWith]

/-- The checks of PU_LIST are its steps 9, 10 and 14 (R120). -/
theorem puList_check {p : Params} {i : Nat} (hi : 1 ≤ i) {c : Check} (h : (puList p)[i - 1]? = some (.check c)) :
    (i = 9 ∧ c = .driverId) ∨ (i = 10 ∧ c = .breakage) ∨ (i = 14 ∧ c = .dcLevel) := by
  obtain ⟨k, rfl⟩ := Nat.exists_eq_add_of_le' hi
  have hlt : k < 14 := (List.getElem?_eq_some_iff.1 h).1
  interval_cases k <;> cases h <;> simp

theorem pdList_no_check {p : Params} {i : Nat} (hi : 1 ≤ i) (c : Check) : (pdList p)[i - 1]? ≠ some (.check c) := by
  intro h
  obtain ⟨k, rfl⟩ := Nat.exists_eq_add_of_le' hi
  have hlt : k < 9 := (List.getElem?_eq_some_iff.1 h).1
  interval_cases k <;> cases h

/-- A step of PU_LIST that is no check leaves the record. -/
theorem recordBefore_succ {p : Params} {i : Nat} {st : SeqStep} (h : (puList p)[i - 1]? = some st)
    (hst : ∀ c, st ≠ .check c) : recordBefore (i + 1) = recordBefore i := by
  have hne : ∀ j c, (puList p)[j - 1]? = some (.check c) → i ≠ j := by
    rintro j c hj rfl
    exact hst c (Option.some.inj (h.symm.trans hj))
  have hpast : ∀ j c, (puList p)[j - 1]? = some (.check c) → (j < i + 1 ↔ j < i) := fun j c hj => by
    have := hne j c hj
    omega
  simp only [recordBefore, hpast 9 _ rfl, hpast 10 _ rfl, hpast 14 _ rfl]

/-- At a check of PU_LIST a pass gives the record of the next step, and the lines are those of a powered panel. -/
theorem puList_at_check {p : Params} {i : Nat} (hi : 1 ≤ i) {c : Check} (h : (puList p)[i - 1]? = some (.check c)) :
    (recordBefore i).evaluate c true = recordBefore (i + 1) ∧ puLines (i + 1) 0 = Lines.powered := by
  rcases puList_check hi h with ⟨rfl, rfl⟩ | ⟨rfl, rfl⟩ | ⟨rfl, rfl⟩ <;> decide

/-- Past the last step of PU_LIST the panel is powered and every check has passed (R120). -/
theorem puList_at_end {i : Nat} (hi : 15 ≤ i) (ev : Nat) :
    puLines i ev = Lines.powered ∧ { recordBefore i with valid := true } = SelfTest.good := by
  have hlt : ∀ j, j < 15 → j < i := fun j hj => Nat.lt_of_lt_of_le hj hi
  simp [puLines, performed, recordBefore, Lines.powered, SelfTest.good, hlt]

/-- Past the last step of PD_LIST every line is down (R121). -/
theorem pdList_at_end {i : Nat} (hi : 10 ≤ i) (ev : Nat) : pdLines i ev = Lines.down := by
  have hlt : ∀ j, j < 10 → j < i := fun j hj => Nat.lt_of_lt_of_le hj hi
  simp [pdLines, performed, Lines.down, hlt]

end Sys2Proof.Machine

end

section
/-! O49: completions and the steps of POWER_UP and POWER_DOWN keep the invariant. -/

namespace Sys2Proof.Machine

/-! ### The steps of the power commands keep the invariant (R122, R123, R125) -/

/-- What the invariant is about and no move within a step, a frame or a wait writes. -/
structure Kept where
  par : Params
  mem : Memory
  busy : Bool
  cur : Cur
  session : Session
  result : Word
  selfTest : SelfTest
  stRaw : Word

def State.kept (s : State) : Kept :=
  ⟨s.par, s.mem, s.busy, s.cur, s.session, s.result, s.selfTest, s.stRaw⟩

@[simp] theorem emit_kept (a : Act) (s : State) : (emit a s).kept = s.kept := by
  simp [State.kept]

@[simp] theorem emitReadBusy_kept (s : State) : (emitReadBusy s).kept = s.kept := by
  simp [State.kept]

/-- A move of a command in flight leaves the parameters, memory and RESULT, and BUSY stays 1. -/
theorem Inv.of_running {s t : State} (h : Inv s) (hfixed : t.par = s.par ∧ t.mem = s.mem ∧ t.result = s.result)
    (hb : t.busy = true) (hpc : t.pc ≠ .idle) (hpos : PositionInv t) (hloop : LoopInv t) (hlines : LinesInv t)
    (hrecord : RecordInv t) (hsession : SessionRecordInv t) : Inv t where
  parameters := hfixed.1 ▸ h.parameters
  memory := hfixed.2.1 ▸ h.memory
  busyIff := by simp [BusyInv, hb, hpc]
  position := hpos
  loop := hloop
  resultOk := by
    rw [ResultInv, hfixed.2.2]
    exact h.resultOk
  lines := hlines
  record := hrecord
  sessionRecord := hsession

theorem Inv.of_kept {s t : State} (h : Inv s) (hb : s.busy = true) (hk : t.kept = s.kept) (hpc : t.pc ≠ .idle)
    (hpos : positionFits s.cur.op s.session t.pc = true) (hloop : LoopInv t) (hlines : LinesInv t)
    (hsession : SessionRecordInv t) : Inv t := by
  obtain ⟨hpar, hmem, hbusy, hcur, hs, hresult, hrecord, hraw⟩ := Kept.mk.injEq .. ▸ hk
  have hagrees : RecordInv t := by
    rw [RecordInv, hrecord, hraw]
    exact h.record
  exact h.of_running ⟨hpar, hmem, hresult⟩ (hbusy.trans hb) hpc (by rwa [PositionInv, hcur, hs]) hloop hlines hagrees
    hsession

/-- Outside the lists and the frames the lines are those of the session. -/
theorem Inv.lines_between {s : State} (h : Inv s) (hpc : outsideLists s.pc = true) (hacts : doneActs s = []) :
    s.lines = { s.session.lines with cs := false } := by
  rw [← show csAfter (doneActs s) false = false by rw [hacts]; rfl]
  exact (linesInv_outsideLists hpc).1 h.lines

theorem resultLegal_resultWord (op : BitVec 4) (kind : Kind) {check : BitVec 2} (stage : BitVec 4) {line : BitVec 8}
    (hcheck : check.toNat ≤ 2) (hline : line.toNat ≤ lastRow.toNat) :
    resultLegal (resultWord op kind check stage line) = true := by
  obtain ⟨h3, h6, h12, h28⟩ := resultWord_reserved op kind check stage line
  simp [resultLegal, kind_code_le, hcheck, hline, h3, h6, h12, h28]

/-- A completion from a settled session leaves an idle engine (R89). -/
theorem Inv.complete {s : State} (h : Inv s) (hpc : outsideLists s.pc = true) (hacts : doneActs s = [])
    (hs : s.session.settled = true) (kind : Kind) {check : BitVec 2} (stage : BitVec 4) {line : BitVec 8}
    (hcheck : check.toNat ≤ 2) (hline : line.toNat ≤ lastRow.toNat) : Inv (complete kind check stage line s) where
  parameters := h.parameters
  memory := h.memory
  busyIff := ⟨fun _ => rfl, fun _ => rfl⟩
  position := hs
  loop := rfl
  resultOk := resultLegal_resultWord _ _ _ hcheck hline
  lines := (linesInv_outsideLists rfl).2 (h.lines_between hpc hacts)
  record := h.record
  sessionRecord := (sessionRecordInv_outsideLists rfl).2 ((sessionRecordInv_outsideLists hpc).1 h.sessionRecord)

theorem settled_of_outcomeFits {op : BitVec 4} {kind : Kind} {session : Session}
    (h : outcomeFits op kind session = true) : session.settled = true := by
  cases session with
  | off | ready | faulted => rfl
  | poweringUp | poweringDown => simp [outcomeFits] at h

section Running

variable {s : State} (h : Inv s) (hb : s.busy = true)
include h hb

theorem Inv.startPowerUp (hop : s.cur.op = 1) (hs : s.session = .off) (hpc : outsideLists s.pc = true)
    (hacts : doneActs s = []) : Inv (startPowerUp s) := by
  have hlines : s.lines = { puLines 1 0 with cs := false } := by
    rw [h.lines_between hpc hacts, hs]
    rfl
  exact h.of_running ⟨rfl, rfl, rfl⟩ hb nofun (by simp [PositionInv, positionFits, Machine.startPowerUp, hop]) rfl
    ((linesInv_pu_begin rfl).2 hlines) (recordInv_cleared rfl rfl) ((sessionRecordInv_pu rfl).2 rfl)

theorem Inv.startPowerDown (hop : s.cur.op = 1 ∨ s.cur.op = 2) (hs : s.session = .ready ∨ s.session = .faulted)
    (hpc : outsideLists s.pc = true) (hacts : doneActs s = []) : Inv (startPowerDown s) := by
  have hadmits := (sessionRecordInv_outsideLists hpc).1 h.sessionRecord
  have hpowered : s.lines = { pdLines 1 0 with cs := false } ∧ s.selfTest.valid = true := by
    rw [h.lines_between hpc hacts]
    rcases hs with hs | hs <;> rw [hs] at hadmits ⊢
    · exact ⟨rfl, congrArg SelfTest.valid (eq_of_beq hadmits)⟩
    · exact ⟨rfl, hadmits⟩
  exact h.of_running ⟨rfl, rfl, rfl⟩ hb nofun (by simpa [PositionInv, positionFits, Machine.startPowerDown] using hop)
    rfl ((linesInv_pd_begin rfl).2 hpowered.1) h.record ((sessionRecordInv_pd rfl).2 hpowered.2)

end Running

section PuList

variable {s : State} (h : Inv s) (hb : s.busy = true) (hop : s.cur.op = 1) (hs : s.session = .poweringUp)
  {i ev : Nat} (hi : 1 ≤ i) (hpc : s.pc = .pu i ev)
include h hpc

theorem Inv.lines_pu {st : SeqStep} (hst : (puList s.par)[i - 1]? = some st) :
    s.lines = { puLines i ev with cs := csAfter ((st.acts s.par).take ev) false } := by
  have hlines := (linesInv_pu hpc).1 h.lines
  rwa [hst] at hlines

theorem Inv.record_pu : s.selfTest = recordBefore i := (sessionRecordInv_pu hpc).1 h.sessionRecord

include hb hop hi

theorem Inv.endPowerUp (hlen : (puList s.par).length ≤ i - 1) : Inv (endPowerUp s) := by
  have hi15 : 15 ≤ i := by
    have : 14 ≤ i - 1 := hlen
    omega
  obtain ⟨hpowered, hgood⟩ := puList_at_end hi15 ev
  have hlines := (linesInv_pu hpc).1 h.lines
  rw [List.getElem?_eq_none hlen, Option.map_none, Option.getD_none, List.take_nil, hpowered] at hlines
  have hadmits : Session.ready.admits { s.selfTest with valid := true } = true := by
    rw [h.record_pu hpc, hgood]
    rfl
  exact h.of_running ⟨rfl, rfl, rfl⟩ hb nofun
    (by simp [PositionInv, positionFits, outcomeFits, Machine.endPowerUp, hop]) rfl
    ((linesInv_outsideLists rfl).2 hlines) h.record ((sessionRecordInv_outsideLists rfl).2 hadmits)

include hs

theorem Inv.pu_emit {st : SeqStep} {a : Act} (hst : (puList s.par)[i - 1]? = some st)
    (ha : (st.acts s.par)[ev]? = some a) : Inv ((emit a s).goto (.pu i (ev + 1))) := by
  refine h.of_kept hb (emit_kept a s) nofun (by simp [positionFits, hop, hs, hi]) rfl ((linesInv_pu rfl).2 ?_)
    ((sessionRecordInv_pu rfl).2 ((emit_selfTest a s).trans (h.record_pu hpc)))
  rw [goto_par, emit_par, hst]
  exact (drives_puList s.par).emit hi hst (h.lines_pu hpc hst) ha

theorem Inv.pu_evalCheck {c : Check} (hst : (puList s.par)[i - 1]? = some (.check c))
    (hev : (SeqStep.acts s.par (.check c)).length ≤ ev) : Inv (evalCheck c (.pu (i + 1) 0) s) := by
  have hlines := (drives_puList s.par).stepDone hi hst (h.lines_pu hpc hst) hev
  obtain ⟨hpassed, hpowered⟩ := puList_at_check hi hst
  have hrecord := recordInv_evalCheck h.record c (.pu (i + 1) 0)
  rcases evalCheck_cases c (.pu (i + 1) 0) s with ⟨-, e⟩ | ⟨-, e⟩ <;> rw [e] at hrecord ⊢
  · exact h.of_running ⟨rfl, rfl, rfl⟩ hb nofun (by simp [PositionInv, positionFits, hop, hs]) rfl
      ((linesInv_pu_begin rfl).2 hlines) hrecord ((sessionRecordInv_pu rfl).2 (by rw [h.record_pu hpc, hpassed]))
  · rw [hpowered] at hlines
    exact h.of_running ⟨rfl, rfl, rfl⟩ hb nofun (by simp [PositionInv, positionFits, outcomeFits, hop])
      (by cases c <;> rfl) ((linesInv_outsideLists rfl).2 hlines) hrecord ((sessionRecordInv_outsideLists rfl).2 rfl)

theorem Inv.pu_endStep {st : SeqStep} (hst : (puList s.par)[i - 1]? = some st) (hev : (st.acts s.par).length ≤ ev) :
    Inv (endStep st (.pu (i + 1) 0) s) := by
  by_cases hcheck : ∃ c, st = .check c
  · obtain ⟨c, rfl⟩ := hcheck
    exact h.pu_evalCheck hb hop hs hi hpc hst hev
  · have hplain : ∀ c, st ≠ .check c := fun c hc => hcheck ⟨c, hc⟩
    have hlines := (drives_puList s.par).stepDone hi hst (h.lines_pu hpc hst) hev
    rcases endStep_cases st (.pu (i + 1) 0) s with e | ⟨n, -, -, e⟩ | ⟨c, hc, -⟩
    · rw [e]
      exact h.of_kept hb rfl nofun (by simp [positionFits, hop, hs]) rfl ((linesInv_pu_begin rfl).2 hlines)
        ((sessionRecordInv_pu rfl).2 ((h.record_pu hpc).trans (recordBefore_succ hst hplain).symm))
    · rwa [e]
    · exact absurd hc (hplain c)

/-- Each ENGINE turn along PU_LIST, and its end (R119, R120, R122). -/
theorem Inv.puList : Inv (runList (puList s.par) .pu Machine.endPowerUp i ev s) := by
  rcases runList_cases (Machine.puList s.par) .pu Machine.endPowerUp i ev s with
    ⟨st, a, hst, ha, e⟩ | ⟨st, hst, hev, e⟩ | ⟨hlen, e⟩ <;> rw [e]
  · exact h.pu_emit hb hop hs hi hpc hst ha
  · exact h.pu_endStep hb hop hs hi hpc hst hev
  · exact h.endPowerUp hb hop hi hpc hlen

end PuList

section PdList

variable {s : State} (h : Inv s) (hb : s.busy = true) (hs : s.session = .poweringDown) {i ev : Nat} (hi : 1 ≤ i)
  (hpc : s.pc = .pd i ev) {next : Pc}
  (hnext : (s.cur.op = 1 ∧ next = .puStart) ∨ (s.cur.op = 2 ∧ next = .complete .ok 0 0 0))
include h hb hpc hnext

include hs in
/-- A move within PD_LIST that leaves the record, to a place whose lines the state has. -/
theorem Inv.pd_move {t : State} {j ev' : Nat} (hj : 1 ≤ j) (ht : t.pc = .pd j ev') (hk : t.kept = s.kept)
    (hlines : LinesInv t) : Inv t := by
  have hsession : t.session = s.session := congrArg Kept.session hk
  have hrecord : t.selfTest = s.selfTest := congrArg Kept.selfTest hk
  have hop : s.cur.op = 1 ∨ s.cur.op = 2 := hnext.imp And.left And.left
  refine h.of_kept hb hk (by simp [ht]) (by simpa [ht, positionFits, hs, hj] using hop)
    (by simp [LoopInv, loopFits, ht]) hlines ((sessionRecordInv_pd ht).2 ?_)
  rw [hsession, hrecord]
  exact (sessionRecordInv_pd hpc).1 h.sessionRecord

include hi

theorem Inv.endPowerDown (hlen : (pdList s.par).length ≤ i - 1) : Inv (endPowerDown next s) := by
  have hi10 : 10 ≤ i := by
    have : 9 ≤ i - 1 := hlen
    omega
  have hlines := (linesInv_pd hpc).1 h.lines
  rw [List.getElem?_eq_none hlen, Option.map_none, Option.getD_none, List.take_nil, pdList_at_end hi10 ev] at hlines
  have hmove : next ≠ .idle ∧ positionFits s.cur.op .off next = true ∧ outsideLists next = true ∧
      LoopInv (Machine.endPowerDown next s) ∧ doneActs (Machine.endPowerDown next s) = [] := by
    rcases hnext with ⟨hop, rfl⟩ | ⟨hop, rfl⟩
    · exact ⟨nofun, by simp [positionFits, hop], rfl, rfl, rfl⟩
    · exact ⟨nofun, by simp [positionFits, outcomeFits, hop], rfl, rfl, rfl⟩
  obtain ⟨hidle, hpos, hout, hloop, hacts⟩ := hmove
  exact h.of_running ⟨rfl, rfl, rfl⟩ hb hidle hpos hloop
    ((linesInv_outsideLists hout).2 (by rw [hacts]; exact hlines)) (recordInv_cleared rfl rfl)
    ((sessionRecordInv_outsideLists hout).2 rfl)

include hs

/-- Each ENGINE turn along PD_LIST, and its end (R121, R123, R125). -/
theorem Inv.pdList : Inv (runList (pdList s.par) .pd (Machine.endPowerDown next) i ev s) := by
  rcases runList_cases (Machine.pdList s.par) .pd (Machine.endPowerDown next) i ev s with
    ⟨st, a, hst, ha, e⟩ | ⟨st, hst, hev, e⟩ | ⟨hlen, e⟩ <;> rw [e]
  · have hlines := (linesInv_pd hpc).1 h.lines
    rw [hst] at hlines
    refine h.pd_move hb hs hpc hnext hi rfl (emit_kept a s) ((linesInv_pd rfl).2 ?_)
    rw [goto_par, emit_par, hst]
    exact (drives_pdList s.par).emit hi hst hlines ha
  · have hlines := (linesInv_pd hpc).1 h.lines
    rw [hst] at hlines
    rcases endStep_cases st (.pd (i + 1) 0) s with e | ⟨n, -, -, e⟩ | ⟨c, rfl, -⟩
    · rw [e]
      exact h.pd_move hb hs hpc hnext (Nat.le_add_left 1 i) rfl rfl
        ((linesInv_pd_begin rfl).2 ((drives_pdList s.par).stepDone hi hst hlines hev))
    · rwa [e]
    · exact absurd hst (pdList_no_check hi c)
  · exact h.endPowerDown hb hi hpc hnext hlen

end PdList

end Sys2Proof.Machine

end

section
/-! O49: the steps of an update keep the invariant: its frames, its waits, its stage loop. -/

namespace Sys2Proof.Machine

/-! ### The steps of an update keep the invariant (R128 to R136) -/

theorem outsideLists_of_update {p : Pc} (h : isUpdatePc p = true) : outsideLists p = true := by
  cases p
  case idle | dispatch | pd | pu | puStart | complete => cases h
  all_goals rfl

theorem positionFits_update {p : Pc} (h : isUpdatePc p = true) : positionFits 3 .ready p = true := by
  cases p
  case idle | dispatch | pd | pu | puStart | complete => cases h
  all_goals rfl

/-- What the loop's bounds are about: the stage lists, K and R (R127, R131). -/
def State.loopPlace (s : State) : Params × Mode × BitVec 4 × BitVec 8 := (s.par, s.upd.modeL, s.upd.k, s.upd.r)

/-- The positions at which K and R are a stage and a row (R131). -/
def inStage : Pc → Bool
  | .row | .fetch _ | .encode | .line _ | .wait _ | .passEnd => true
  | _ => false

theorem loopInv_inStage {s : State} (h : inStage s.pc = true) : LoopInv s ↔ stageOk s = true ∧ rowOk s = true := by
  unfold LoopInv loopFits
  cases hpc : s.pc <;> simp [inStage, hpc] at h ⊢

theorem loopInv_congr {s t : State} (h : LoopInv s) (hs : inStage s.pc = true) (ht : inStage t.pc = true)
    (hplace : t.loopPlace = s.loopPlace) : LoopInv t := by
  obtain ⟨hpar, hmode, hk, hr⟩ : t.par = s.par ∧ t.upd.modeL = s.upd.modeL ∧ t.upd.k = s.upd.k ∧ t.upd.r = s.upd.r := by
    simpa [State.loopPlace] using hplace
  rw [loopInv_inStage ht, stageOk, rowOk, hpar, hmode, hk, hr]
  exact (loopInv_inStage hs).1 h

theorem doneActs_waitAt {s : State} {settle : Bool} {w : WaitPhase} (h : s.pc = waitAt settle w) : doneActs s = [] := by
  cases settle <;> rw [doneActs, h] <;> rfl

theorem isUpdatePc_waitAt (settle : Bool) (w : WaitPhase) : isUpdatePc (waitAt settle w) = true := by
  cases settle <;> rfl

/-- Within a wait the loop's bounds stand: the stage's wait is inside them, the settle wait asks for none. -/
theorem loopInv_waitAt {s t : State} {settle : Bool} {w w' : WaitPhase} (h : LoopInv s) (hs : s.pc = waitAt settle w)
    (ht : t.pc = waitAt settle w') (hplace : t.loopPlace = s.loopPlace) : LoopInv t := by
  cases settle with
  | true => rw [LoopInv, loopFits, ht]; rfl
  | false => exact loopInv_congr h (hs ▸ rfl) (ht ▸ rfl) hplace

section Update

variable {s : State} (h : Inv s) (hb : s.busy = true) (hop : s.cur.op = 3) (hs : s.session = .ready)
  (hpc : outsideLists s.pc = true)
include h hpc

theorem Inv.cs_between (hacts : doneActs s = []) : s.lines.cs = false := by
  rw [h.lines_between hpc hacts]

include hb hop hs

/-- An update's move that keeps what the invariant is about, CS as the frame in progress gives it. -/
theorem Inv.update_emit {t : State} (hk : t.kept = s.kept)
    (hnext : isUpdatePc t.pc = true ∨ t.pc = .complete .ok 0 0 0) (hloop : LoopInv t)
    (hlines : t.lines = { s.lines with cs := csAfter (doneActs t) false }) : Inv t := by
  have hsession : t.session = s.session := congrArg Kept.session hk
  have hrecord : t.selfTest = s.selfTest := congrArg Kept.selfTest hk
  have hplace : t.pc ≠ .idle ∧ outsideLists t.pc = true ∧ positionFits s.cur.op s.session t.pc = true := by
    rw [hop, hs]
    rcases hnext with hnext | hnext
    · exact ⟨fun hidle => by simp [hidle, isUpdatePc] at hnext, outsideLists_of_update hnext, positionFits_update hnext⟩
    · rw [hnext]
      exact ⟨nofun, rfl, rfl⟩
  obtain ⟨hidle, hout, hpos⟩ := hplace
  refine h.of_kept hb hk hidle hpos hloop ((linesInv_outsideLists hout).2 ?_)
    ((sessionRecordInv_outsideLists hout).2 ?_)
  · rw [hlines, hsession, (linesInv_outsideLists hpc).1 h.lines]
  · rw [hsession, hrecord]
    exact (sessionRecordInv_outsideLists hpc).1 h.sessionRecord

/-- An update's move between frames. -/
theorem Inv.update_move {t : State} (hcs : s.lines.cs = false) (hk : t.kept = s.kept) (hlines : t.lines = s.lines)
    (hnext : isUpdatePc t.pc = true ∨ t.pc = .complete .ok 0 0 0) (hloop : LoopInv t) (hacts : doneActs t = []) :
    Inv t := by
  refine h.update_emit hb hop hs hpc hk hnext hloop ?_
  rw [hacts, hlines]
  exact congrArg (fun c => { s.lines with cs := c }) hcs

end Update

section Update

variable {s : State} (h : Inv s) (hb : s.busy = true) (hop : s.cur.op = 3) (hs : s.session = .ready)
include h hb hop hs

theorem Inv.validated (hpc : s.pc = .dispatch) : Inv (s.goto .latch) :=
  have hout : outsideLists s.pc = true := hpc ▸ rfl
  h.update_move hb hop hs hout (h.cs_between hout (by rw [doneActs, hpc])) rfl rfl (.inl rfl) rfl rfl

/-- A move between two positions at which no frame is in progress. -/
theorem Inv.update_between (hpc : isUpdatePc s.pc = true) (hacts : doneActs s = []) {t : State}
    (hk : t.kept = s.kept) (hlines : t.lines = s.lines) (hnext : isUpdatePc t.pc = true ∨ t.pc = .complete .ok 0 0 0)
    (hloop : LoopInv t) (hacts' : doneActs t = []) : Inv t :=
  have hout := outsideLists_of_update hpc
  h.update_move hb hop hs hout (h.cs_between hout hacts) hk hlines hnext hloop hacts'

theorem Inv.latchUpdate (hpc : s.pc = .latch) : Inv (latchUpdate s) := by
  have hstages := (stagesOf_length h.parameters (modeOfBit s.cur.mode)).1
  refine h.update_between hb hop hs (hpc ▸ rfl) (by rw [doneActs, hpc]) rfl rfl (.inl rfl) ?_ rfl
  simpa [LoopInv, loopFits, stageOk, Machine.latchUpdate, latchedCtx] using hstages

theorem Inv.startStage (hpc : s.pc = .stageStart) : Inv (startStage s) := by
  have hstage : stageOk s = true := by simpa [LoopInv, loopFits, hpc] using h.loop
  exact h.update_between hb hop hs (hpc ▸ rfl) (by rw [doneActs, hpc]) rfl rfl (.inl rfl)
    ((loopInv_inStage rfl).2 ⟨hstage, rfl⟩) rfl

theorem Inv.startRow (hpc : s.pc = .row) (k : StageKind) : Inv (startRow k s) := by
  have hmove {t : State} := h.update_between hb hop hs (hpc ▸ rfl) (by rw [doneActs, hpc]) (t := t)
  unfold Machine.startRow
  split <;> exact hmove rfl rfl (.inl rfl) (loopInv_congr h.loop (hpc ▸ rfl) rfl rfl) rfl

theorem Inv.fetchByte {b : Nat} (hpc : s.pc = .fetch b) : Inv (fetchByte b s) := by
  have hnext : (Machine.fetchByte b s).pc = .fetch (b + 1) ∨ (Machine.fetchByte b s).pc = .encode := by
    by_cases hb32 : b < 32
    · exact .inl (if_pos hb32)
    · exact .inr (if_neg hb32)
  have hplace : isUpdatePc (Machine.fetchByte b s).pc = true ∧ inStage (Machine.fetchByte b s).pc = true ∧
      doneActs (Machine.fetchByte b s) = [] := by
    rcases hnext with hnext | hnext <;> rw [doneActs, hnext] <;> exact ⟨rfl, rfl, rfl⟩
  obtain ⟨hup, hin, hacts⟩ := hplace
  exact h.update_between hb hop hs (hpc ▸ rfl) (by rw [doneActs, hpc]) rfl rfl (.inl hup)
    (loopInv_congr h.loop (hpc ▸ rfl) hin rfl) hacts

theorem Inv.buildLine (hpc : s.pc = .encode) (k : StageKind) : Inv (buildLine k s) :=
  h.update_between hb hop hs (hpc ▸ rfl) (by rw [doneActs, hpc]) rfl rfl (.inl rfl)
    (loopInv_congr h.loop (hpc ▸ rfl) rfl rfl) rfl

theorem Inv.endPass (hpc : s.pc = .passEnd) : Inv (endPass s) := by
  obtain ⟨hstage, -⟩ := (loopInv_inStage (hpc ▸ rfl)).1 h.loop
  have hmove {t : State} := h.update_between hb hop hs (hpc ▸ rfl) (by rw [doneActs, hpc]) (t := t)
  unfold Machine.endPass
  split
  · exact hmove rfl rfl (.inl rfl) ((loopInv_inStage rfl).2 ⟨hstage, rfl⟩) rfl
  · split
    · next hk =>
      refine hmove rfl rfl (.inl rfl) ?_ rfl
      have h15 := (stagesOf_length h.parameters s.upd.modeL).2
      simp only [LoopInv, loopFits, stageOk, Bool.and_eq_true, decide_eq_true_eq, BitVec.toNat_add, BitVec.reduceToNat]
      omega
    · exact hmove rfl rfl (.inl rfl) rfl rfl

/-- One ENGINE turn of a frame (R65, R67): an event of it, or what follows it with CS at 0. -/
theorem Inv.updateFrame {acts : Params → Vector Byte 111 → List Act} {at_ : Nat → Pc} {done : State → State}
    (hframe : UpdateFrame acts at_ done) {ev : Nat} (hpc : s.pc = at_ ev) (hup : ∀ n, isUpdatePc (at_ n) = true)
    (hacts : ∀ t n, t.pc = at_ n → doneActs t = (acts t.par t.lineBuf).take n)
    (hloop : ∀ t n, t.pc = at_ n → t.loopPlace = s.loopPlace → LoopInv t)
    (hdone : s.lines.cs = false → Inv (done s)) : Inv (runFrame (acts s.par s.lineBuf) ev at_ done s) := by
  have hout : outsideLists s.pc = true := outsideLists_of_update (hpc ▸ hup ev)
  have hcs : s.lines.cs = csAfter ((acts s.par s.lineBuf).take ev) false := by
    rw [← hacts s ev hpc, (linesInv_outsideLists hout).1 h.lines]
  rcases runFrame_cases (acts s.par s.lineBuf) ev at_ done s with ⟨a, ha, e⟩ | ⟨hlen, e⟩ <;> rw [e]
  · obtain ⟨hmove, hcsa⟩ := emit_goto_writesOrMovesCs (hframe.writes _ _ a (List.mem_of_getElem? ha)) s (at_ (ev + 1))
    refine h.update_emit hb hop hs hout (emit_kept a s) (.inl (hup _))
      (hloop _ (ev + 1) rfl (by simp [State.loopPlace])) ?_
    rw [hacts _ (ev + 1) rfl, goto_par, goto_lineBuf, emit_par, emit_lineBuf, csAfter_take_succ ha, ← hcs, ← hcsa]
    exact congrArg State.lines hmove
  · exact hdone (by rw [hcs, List.take_of_length_le hlen, hframe.csAtEnd])

theorem Inv.line {ev : Nat} (hpc : s.pc = .line ev) :
    Inv (runFrame (lineTx s.par s.lineBuf.toList) ev .line (fun t => t.goto (.wait .start)) s) :=
  h.updateFrame hb hop hs updateFrame_line hpc (fun _ => rfl) (fun t n ht => by rw [doneActs, ht])
    (fun t n ht hplace => loopInv_congr h.loop (hpc ▸ rfl) (ht ▸ rfl) hplace) fun hcs =>
    h.update_move hb hop hs (hpc ▸ rfl) hcs rfl rfl (.inl rfl) (loopInv_congr h.loop (hpc ▸ rfl) rfl rfl) rfl

theorem Inv.handshake {ev : Nat} (hpc : s.pc = .handshake ev) :
    Inv (runFrame (regWrite s.par s.par.idxTxDone s.par.valTxDone) ev .handshake endHandshake s) := by
  refine h.updateFrame hb hop hs updateFrame_handshake hpc (fun _ => rfl) (fun t n ht => by rw [doneActs, ht])
    (fun t n ht _ => by rw [LoopInv, loopFits, ht]) fun hcs => ?_
  cases hmode : s.upd.modeL with
  | full =>
    rw [endHandshake_full hmode]
    exact h.update_move hb hop hs (hpc ▸ rfl) hcs rfl rfl (.inl rfl) rfl rfl
  | partialUpd =>
    rw [endHandshake_partial hmode]
    exact h.update_move hb hop hs (hpc ▸ rfl) hcs rfl rfl (.inr rfl) rfl rfl

theorem Inv.settle {ev : Nat} (hpc : s.pc = .settle ev) :
    Inv (runFrame (lineTx s.par (dummyLine s.par)) ev .settle (fun t => t.goto (.settleWait .start)) s) :=
  h.updateFrame hb hop hs updateFrame_settle hpc (fun _ => rfl) (fun t n ht => by rw [doneActs, ht])
    (fun t n ht _ => by rw [LoopInv, loopFits, ht]) fun hcs =>
    h.update_move hb hop hs (hpc ▸ rfl) hcs rfl rfl (.inl rfl) rfl rfl

end Update

section Wait

variable {s : State} (h : Inv s) (hb : s.busy = true) (hop : s.cur.op = 3) (hs : s.session = .ready)
  {settle : Bool} {w : WaitPhase} (hpc : s.pc = waitAt settle w)
include h hb hop hs hpc

theorem Inv.wait_move {t : State} (hk : t.kept = s.kept) (hlines : t.lines = s.lines)
    (hnext : isUpdatePc t.pc = true ∨ t.pc = .complete .ok 0 0 0) (hloop : LoopInv t) (hacts : doneActs t = []) :
    Inv t :=
  h.update_between hb hop hs (hpc ▸ isUpdatePc_waitAt settle w) (doneActs_waitAt hpc) hk hlines hnext hloop hacts

theorem Inv.wait_phase {t : State} {w' : WaitPhase} (ht : t.pc = waitAt settle w') (hk : t.kept = s.kept)
    (hlines : t.lines = s.lines) (hplace : t.loopPlace = s.loopPlace) : Inv t :=
  h.wait_move hb hop hs hpc hk hlines (.inl (ht ▸ isUpdatePc_waitAt settle w')) (loopInv_waitAt h.loop hpc ht hplace)
    (doneActs_waitAt ht)

/-- A busy wait that returns goes on to the next row, the end of the pass, or the completion (R131, R136). -/
theorem Inv.waitReturn : Inv (waitReturn settle (emitReadBusy s)) := by
  cases settle with
  | true => exact h.wait_move hb hop hs hpc (emitReadBusy_kept s) (emitReadBusy_lines s) (.inr rfl) rfl rfl
  | false =>
    have hin : inStage s.pc = true := hpc ▸ rfl
    obtain ⟨hstage, -⟩ := (loopInv_inStage hin).1 h.loop
    rw [waitReturn_stage]
    by_cases hr : s.upd.r.toNat < 175
    · rw [nextRow_of_lt (by rwa [emitReadBusy_upd])]
      refine h.wait_move hb hop hs hpc (emitReadBusy_kept s) (emitReadBusy_lines s) (.inl rfl)
        ((loopInv_inStage rfl).2 ⟨by simpa [stageOk] using hstage, ?_⟩) rfl
      simp only [rowOk, emitReadBusy_upd, decide_eq_true_eq, BitVec.toNat_add, lastRow, BitVec.reduceToNat]
      omega
    · rw [nextRow_last (by rw [emitReadBusy_upd]; exact Nat.not_lt.1 hr)]
      exact h.wait_move hb hop hs hpc (emitReadBusy_kept s) (emitReadBusy_lines s) (.inl rfl)
        (loopInv_congr h.loop hin rfl (by simp [State.loopPlace])) rfl

/-- A timeout leaves the panel Faulted, its lines as they were (R133, R145). -/
theorem Inv.waitTimeout :
    Inv (faultSession .commTimeout 0 (waitStage settle s) (waitLine settle s) (emitReadBusy s)) := by
  have hout : outsideLists s.pc = true := outsideLists_of_update (hpc ▸ isUpdatePc_waitAt settle w)
  have hrecord := (sessionRecordInv_outsideLists hout).1 h.sessionRecord
  have hlines := h.lines_between hout (doneActs_waitAt hpc)
  rw [hs] at hrecord hlines
  have hloop : (waitLine settle s).toNat ≤ lastRow.toNat := by
    cases settle with
    | true => exact Nat.zero_le _
    | false => exact of_decide_eq_true ((loopInv_inStage (hpc ▸ rfl)).1 h.loop).2
  have hadmits : Session.faulted.admits (emitReadBusy s).selfTest = true := by
    rw [emitReadBusy_selfTest, eq_of_beq hrecord]
    rfl
  exact h.of_running (by simp) (by simpa using hb) nofun (by simp [PositionInv, positionFits, outcomeFits, hop])
    (by simpa [LoopInv, loopFits] using hloop) ((linesInv_outsideLists rfl).2 ((emitReadBusy_lines s).trans hlines))
    (by simpa [RecordInv] using h.record) ((sessionRecordInv_outsideLists rfl).2 hadmits)

/-- One ENGINE turn of a busy wait (R133, R145). -/
theorem Inv.busyWait : Inv (busyWait (waitStage settle s) (waitLine settle s) (waitAt settle)
    (Machine.waitReturn settle) w s) := by
  rcases busyWait_cases (waitStage settle s) (waitLine settle s) (waitAt settle) (Machine.waitReturn settle) w s with
    ⟨-, e⟩ | ⟨-, -, e⟩ | ⟨-, -, -, e⟩ | ⟨-, -, -, e⟩ | ⟨-, e⟩ | ⟨-, -, e⟩ | ⟨-, -, e⟩ <;> rw [e]
  · exact h.wait_phase hb hop hs hpc rfl rfl rfl rfl
  · exact h.waitReturn hb hop hs hpc
  · exact h.waitTimeout hb hop hs hpc
  · exact h.wait_phase hb hop hs hpc rfl (emitReadBusy_kept s) (emitReadBusy_lines s) (by simp [State.loopPlace])
  · exact h.wait_phase hb hop hs hpc rfl (emit_kept _ s) rfl rfl
  · exact h
  · exact h.wait_phase hb hop hs hpc rfl rfl rfl rfl

end Wait

end Sys2Proof.Machine

end

section
/-! O49, O50: every turn keeps the invariant, and the reset state has it. -/

namespace Sys2Proof.Machine

/-! ### Every step keeps the invariant -/

/-- Each ENGINE turn of an update (R128). -/
theorem Inv.updateStep {s t : State} (h : Inv s) (hb : s.busy = true) (hop : s.cur.op = 3) (hs : s.session = .ready)
    (hup : isUpdatePc s.pc = true) (ht : updateStep s = .next t) : Inv t := by
  cases hpc : s.pc
  case latch => cases (updateStep_latch hpc).symm.trans ht; exact h.latchUpdate hb hop hs hpc
  case stageStart => cases (updateStep_stageStart hpc).symm.trans ht; exact h.startStage hb hop hs hpc
  case row =>
    simp only [Machine.updateStep, hpc] at ht
    split at ht <;> cases ht
    exact h.startRow hb hop hs hpc _
  case fetch b => cases (updateStep_fetch hpc).symm.trans ht; exact h.fetchByte hb hop hs hpc
  case encode =>
    simp only [Machine.updateStep, hpc] at ht
    split at ht <;> cases ht
    exact h.buildLine hb hop hs hpc _
  case line ev => cases (updateStep_line hpc).symm.trans ht; exact h.line hb hop hs hpc
  case wait w =>
    cases (updateStep_busyWait (settle := false) hpc).symm.trans ht
    exact h.busyWait hb hop hs (settle := false) hpc
  case passEnd => cases (updateStep_passEnd hpc).symm.trans ht; exact h.endPass hb hop hs hpc
  case handshake ev => cases (updateStep_handshake hpc).symm.trans ht; exact h.handshake hb hop hs hpc
  case settle ev => cases (updateStep_settle hpc).symm.trans ht; exact h.settle hb hop hs hpc
  case settleWait w =>
    cases (updateStep_busyWait (settle := true) hpc).symm.trans ht
    exact h.busyWait hb hop hs (settle := true) hpc
  case idle | dispatch | pd | pu | puStart | complete => simp [hpc, isUpdatePc] at hup

/-- Each ENGINE turn of a command in flight, by what it can do (R88). -/
theorem Inv.of_advance {s t : State} (h : Inv s) (hb : s.busy = true) (ht : Advance s t) : Inv t := by
  cases ht with
  | reported kind check stage line hpc =>
    have hpos := h.position
    have hloop := h.loop
    simp only [PositionInv, positionFits, LoopInv, loopFits, hpc, Bool.and_eq_true, decide_eq_true_eq] at hpos hloop
    exact h.complete (hpc ▸ rfl) (by rw [doneActs, hpc]) (settled_of_outcomeFits hpos) kind stage hloop.1 hloop.2
  | refused kind hpc =>
    have hpos := h.position
    simp only [PositionInv, positionFits, hpc, Bool.and_eq_true] at hpos
    exact h.complete (hpc ▸ rfl) (by rw [doneActs, hpc]) hpos.2 kind 0 (by decide) (by decide)
  | startPowerUp hop hs hpc =>
    rcases hpc with hpc | hpc <;> exact h.startPowerUp hb hop hs (hpc ▸ rfl) (by rw [doneActs, hpc])
  | startPowerDown hpc hs =>
    exact h.startPowerDown hb (hs.imp And.left And.left) (hs.elim (.inr ·.2) (·.2)) (hpc ▸ rfl) (by rw [doneActs, hpc])
  | puList i ev hop hs hi hpc => exact h.puList hb hop hs hi hpc
  | pdList next i ev hnext hs hi hpc => exact h.pdList hb hs hi hpc hnext
  | validated hop hs hpc => exact h.validated hb hop hs hpc
  | update hop hs hup ht => exact h.updateStep hb hop hs hup ht

theorem Inv.engineTurn {s t : State} (h : Inv s) (ht : engineTurn s = .next t) : Inv t := by
  cases hb : s.busy with
  | false => cases (engineTurn_idle hb).symm.trans ht; exact h
  | true => exact h.of_advance hb (h.advance hb ht)

/-- Acceptance by an idle engine puts a command that is no NOP at DISPATCH (R87). -/
theorem Inv.accept {s : State} (h : Inv s) (hb : s.busy = false) {w : Word} (hw : opField w ≠ 0) :
    Inv (accept w s) := by
  have hpc : s.pc = .idle := h.busyIff.1 hb
  have hout : outsideLists s.pc = true := hpc ▸ rfl
  have hpos := h.position
  rw [PositionInv, hpc] at hpos
  exact {
    parameters := h.parameters
    memory := h.memory
    busyIff := ⟨nofun, nofun⟩
    position := by
      simp only [PositionInv, positionFits, Machine.accept, curOfWord, Bool.and_eq_true, bne_iff_ne]
      exact ⟨hw, hpos⟩
    loop := rfl
    resultOk := h.resultOk
    lines := (linesInv_outsideLists rfl).2 (h.lines_between hout (by rw [doneActs, hpc]))
    record := h.record
    sessionRecord := (sessionRecordInv_outsideLists rfl).2 ((sessionRecordInv_outsideLists hout).1 h.sessionRecord) }

/-- What the invariant does not speak of: the HOST's program and log, its registers, OVERRUN, NOW. -/
theorem Inv.of_agents {s : State} (h : Inv s) (host : List HostOp) (hostLog : List HostObs) (fbBase fbLen tmo : Word)
    (overrun : Bool) (now : Word) : Inv { s with
      host := host, hostLog := hostLog, fbBase := fbBase, fbLen := fbLen, busyTimeout := tmo, overrun := overrun,
      now := now } :=
  ⟨h.parameters, h.memory, h.busyIff, h.position, h.loop, h.resultOk, h.lines, h.record, h.sessionRecord⟩

theorem Inv.hostMemWrite {s : State} (h : Inv s) (a : Word) (v : Byte) : Inv (hostMemWrite a v s) :=
  ⟨h.parameters, Memory.wf_write s.mem a.toNat v h.memory a.isLt, h.busyIff, h.position, h.loop, h.resultOk, h.lines,
    h.record, h.sessionRecord⟩

theorem Inv.hostWrite {off : Nat} {v : Word} {s t : State} (h : Inv s) (ht : hostWrite off v s = .next t) : Inv t := by
  rcases hostWrite_cases ht with ⟨rfl, hb, -⟩ | rfl | rfl | rfl | rfl | rfl | rfl
  · cases (cmdWrite_idle hb v).symm.trans ht
    split
    · exact h
    · next hw => exact h.accept hb hw
  all_goals exact h.of_agents ..

theorem Inv.hostTurn {s t : State} (h : Inv s) (ht : hostTurn s = .next t) : Inv t := by
  rcases hostTurn_cases ht with rfl | ⟨off, f, u, rfl | ⟨rest, rfl⟩, rfl⟩ | ⟨off, v, rest, hw⟩ | ⟨a, v, rest, rfl⟩
  · exact h
  · exact h.of_agents ..
  · exact h.of_agents ..
  · exact Inv.hostWrite (s := { s with host := rest }) (h.of_agents ..) hw
  · exact Inv.hostMemWrite (s := { s with host := rest }) (h.of_agents ..) a v

/-- The reset state of well-formed parameters, whatever memory holds and whatever is unspecified (R163). -/
theorem inv_hardReset {s : State} (hpar : s.par.wf = true) (hmem : s.mem.wf = true) : Inv (hardReset s) where
  parameters := hpar
  memory := hmem
  busyIff := ⟨fun _ => rfl, fun _ => rfl⟩
  position := rfl
  loop := rfl
  resultOk := show resultLegal 0 = true from by decide
  lines := rfl
  record := recordInv_cleared rfl rfl
  sessionRecord := rfl

theorem Inv.takeTurn {u : Turn} {s t : State} (h : Inv s) (ht : takeTurn u s = .next t) : Inv t := by
  cases u with
  | host => exact h.hostTurn ht
  | engine => exact h.engineTurn ht
  | clock => cases ht; exact h.of_agents ..
  | rst => cases ht; exact inv_hardReset h.parameters h.memory
  | short => cases shortTurn_eq ht; exact h

/-! ### The obligations -/

/-- Settles O49: a step is a turn, and a turn of each agent keeps the invariant; the ENGINE's by the position. -/
theorem stepKeepsInvariant : Obligations.StepKeepsInvariant :=
  fun _ _ h ht => h.dropTurn.takeTurn (step_next ht).2

/-- Settles O50. -/
theorem invariantAtReset : Obligations.InvariantAtReset where
  parameters := by decide
  memory := rfl
  busyIff := ⟨fun _ => rfl, fun _ => rfl⟩
  position := rfl
  loop := rfl
  resultOk := show resultLegal 0 = true from by decide
  lines := rfl
  record := recordInv_cleared rfl rfl
  sessionRecord := rfl

end Sys2Proof.Machine

end

section
/-! O20, O54, O55: what no HOST turn writes, who reports and clears BUSY, and who moves a line. -/

namespace Sys2Proof.Machine

/-! ### What no HOST turn writes (R22, R87) -/

/-- What the engine, the CLOCK or the reset may write and no HOST turn does, with the parameters that nothing writes. -/
structure EngineSide where
  par : Params
  session : Session
  selfTest : SelfTest
  stRaw : Word
  result : Word
  lines : Lines
  now : Word

def State.engineSide (s : State) : EngineSide :=
  ⟨s.par, s.session, s.selfTest, s.stRaw, s.result, s.lines, s.now⟩

theorem hostWrite_engineSide {off : Nat} {v : Word} {s t : State} (h : hostWrite off v s = .next t) :
    t.engineSide = s.engineSide := by
  rcases hostWrite_cases h with ⟨-, hb, he⟩ | rfl | rfl | rfl | rfl | rfl | rfl
  · rcases exec_idle hb (decodeWord v) with e | e <;> cases e.symm.trans he <;> rfl
  all_goals rfl

theorem hostTurn_engineSide {s t : State} (h : hostTurn s = .next t) : t.engineSide = s.engineSide := by
  rcases hostTurn_cases h with rfl | ⟨off, f, u, rfl | ⟨rest, rfl⟩, rfl⟩ | ⟨off, v, rest, hw⟩ | ⟨a, v, rest, rfl⟩
  · rfl
  · rfl
  · rfl
  · exact hostWrite_engineSide (s := { s with host := rest }) hw
  · rfl

/-! ### What the ends of a check, a row and a pass leave (R119, R131) -/

theorem evalCheck_frame (c : Check) (next : Pc) (s : State) : evalCheck c next s = { s with
    selfTest := (evalCheck c next s).selfTest
    stRaw := (evalCheck c next s).stRaw
    session := (evalCheck c next s).session
    pc := (evalCheck c next s).pc } := by
  rcases evalCheck_cases c next s with ⟨-, e⟩ | ⟨-, e⟩ <;> rw [e]

theorem nextRow_frame (s : State) : nextRow s = { s with upd := (nextRow s).upd, pc := (nextRow s).pc } := by
  unfold nextRow
  split <;> rfl

theorem endPass_frame (s : State) : endPass s = { s with upd := (endPass s).upd, pc := (endPass s).pc } := by
  unfold endPass
  split
  · rfl
  · split <;> rfl

/-! ### Who changes RESULT and BUSY (R26, R28, R89) -/

/-- A move of the engine changes neither RESULT nor BUSY, or it ends the command in flight. -/
theorem EngineMove.report {s t : State} (h : EngineMove s t) :
    (t.result = s.result ∧ t.busy = s.busy) ∨ (t.busy = false ∧ t.pc = .idle) := by
  cases h with
  | complete kind check stage line => exact .inr ⟨rfl, rfl⟩
  | emit a p => exact .inl ⟨emit_result a s, emit_busy a s⟩
  | evalCheck c next => rw [evalCheck_frame]; exact .inl ⟨rfl, rfl⟩
  | sampleFault | sampleGoto => exact .inl ⟨emitReadBusy_result s, emitReadBusy_busy s⟩
  | sampleNextRow => rw [nextRow_frame]; exact .inl ⟨emitReadBusy_result s, emitReadBusy_busy s⟩
  | passEnd => rw [endPass_frame]; exact .inl ⟨rfl, rfl⟩
  | stay | goto | startPowerUp | startPowerDown | endPowerUp | endPowerDown | latch | stageStart | fetch | encode
  | waitStart => exact .inl ⟨rfl, rfl⟩

/-- An ENGINE turn changes neither RESULT nor BUSY, or it ends the command in flight. -/
theorem engineTurn_report {s t : State} (h : engineTurn s = .next t) :
    (t.result = s.result ∧ t.busy = s.busy) ∨ (s.busy = true ∧ t.busy = false ∧ t.pc = .idle) := by
  cases hb : s.busy with
  | false => cases (engineTurn_idle hb).symm.trans h; exact .inl ⟨rfl, hb⟩
  | true => exact (engineTurn_move h).report.imp (hb ▸ id) fun hend => ⟨rfl, hend⟩

/-- A host write raises BUSY only at CMD, by a word that is no NOP, and never clears it (R26, R87). -/
theorem hostWrite_busy {off : Nat} {v : Word} {s t : State} (h : hostWrite off v s = .next t) :
    t.busy = s.busy ∨ (t.busy = true ∧ off = 0 ∧ opField v ≠ 0) := by
  rcases hostWrite_cases h with ⟨rfl, hb, -⟩ | rfl | rfl | rfl | rfl | rfl | rfl
  · cases (cmdWrite_idle hb v).symm.trans h
    split
    · exact .inl rfl
    · next hop => exact .inr ⟨rfl, rfl, hop⟩
  all_goals exact .inl rfl

/-- A HOST turn raises BUSY only by the CMD write of a word that is no NOP, and never clears it (R26, R87). -/
theorem hostTurn_busy {s t : State} (h : hostTurn s = .next t) :
    t.busy = s.busy ∨ (t.busy = true ∧ ∃ w ops, s.host = .wr 0 4 w :: ops ∧ opField w ≠ 0) := by
  cases hs : s.host with
  | nil => cases (hostTurn_nil hs).symm.trans h; exact .inl rfl
  | cons op ops =>
    cases op with
    | rd off bytes =>
      rw [hostTurn_rd hs] at h
      split at h <;> cases h
      exact .inl rfl
    | wr off bytes v =>
      rw [hostTurn_wr hs] at h
      split_ifs at h with hok
      obtain ⟨rfl, -, -⟩ := (accessOk_iff off bytes).1 hok
      rcases hostWrite_busy h with hkeep | ⟨hraise, rfl, hop⟩
      · exact .inl hkeep
      · exact .inr ⟨hraise, v, ops, rfl, hop⟩
    | waitIdle =>
      cases (hostTurn_waitIdle hs).symm.trans h
      split <;> exact .inl rfl
    | expect off mask v =>
      rw [hostTurn_expect hs] at h
      split at h <;> cases h
      exact .inl rfl
    | memWr a v => cases (hostTurn_memWr hs).symm.trans h; exact .inl rfl

/-- RESULT changes and BUSY falls only by a reset, or by the ENGINE turn that ends the command in flight. -/
theorem takeTurn_report {u : Turn} {s t : State} (h : takeTurn u s = .next t)
    (hc : t.result ≠ s.result ∨ (s.busy = true ∧ t.busy = false)) :
    u = .rst ∨ (u = .engine ∧ s.busy = true ∧ t.busy = false ∧ t.pc = .idle) := by
  have hkeeps : ¬ (t.result = s.result ∧ (t.busy = s.busy ∨ t.busy = true)) := by
    rintro ⟨hresult, hbusy⟩
    rcases hc with hc | ⟨hb, hc⟩
    · exact hc hresult
    · simp [hb, hc] at hbusy
  cases u with
  | rst => exact .inl rfl
  | engine =>
    rcases engineTurn_report h with ⟨hresult, hbusy⟩ | hend
    · exact absurd ⟨hresult, .inl hbusy⟩ hkeeps
    · exact .inr ⟨rfl, hend⟩
  | host =>
    have hresult : t.result = s.result := congrArg EngineSide.result (hostTurn_engineSide h)
    exact absurd ⟨hresult, (hostTurn_busy h).imp_right And.left⟩ hkeeps
  | clock => cases h; exact absurd ⟨rfl, .inl rfl⟩ hkeeps
  | short => cases shortTurn_eq h; exact absurd ⟨rfl, .inl rfl⟩ hkeeps

/-- BUSY rises only by the HOST's CMD write of a word that is no NOP (R26, R87). -/
theorem takeTurn_raises_busy {u : Turn} {s t : State} (h : takeTurn u s = .next t) (hb : s.busy = false)
    (ht : t.busy = true) : u = .host ∧ ∃ w ops, s.host = .wr 0 4 w :: ops ∧ opField w ≠ 0 := by
  have hrises : t.busy ≠ s.busy := by simp [hb, ht]
  cases u with
  | host => exact ⟨rfl, ((hostTurn_busy h).resolve_left hrises).2⟩
  | engine => cases (engineTurn_idle hb).symm.trans h; exact absurd rfl hrises
  | clock => cases h; exact absurd rfl hrises
  | rst => cases h; cases ht
  | short => cases shortTurn_eq h; exact absurd rfl hrises

/-- At COMPLETE the step of every command but NOP is the completion (R89). -/
theorem exec_complete {i : Instr} {s : State} {kind : Kind} {check : BitVec 2} {stage : BitVec 4} {line : BitVec 8}
    (hi : ∀ x, i ≠ .nop x) (hb : s.busy = true) (hpc : s.pc = .complete kind check stage line) :
    exec i s = .next (complete kind check stage line s) := by
  cases i with
  | nop x => exact absurd rfl (hi x)
  | powerUp x => exact (exec_powerUp_running hb x).trans (powerUpStep_complete hpc)
  | powerDown x => exact (exec_powerDown_running hb x).trans (powerDownStep_complete hpc)
  | updateFull temp r => exact (exec_updateFull_running hb temp r).trans (updateStep_complete hpc)
  | updatePartial temp r => exact (exec_updatePartial_running hb temp r).trans (updateStep_complete hpc)
  | reserved4to7 op x => exact (exec_reserved4to7_running hb op x).trans (reservedStep_complete hpc)
  | reserved8toF op x => exact (exec_reserved8toF_running hb op x).trans (reservedStep_complete hpc)

/-! ### Who moves a line (R42, R60) -/

/-- A move of the engine leaves every line, or emits the SetLine that moves one. -/
theorem EngineMove.lines {s t : State} (h : EngineMove s t) : t.lines = s.lines ∨
    ∃ name level, t.events = .setLine name level :: s.events ∧ t.lines = setLevel s.lines name level := by
  cases h with
  | emit a p =>
    cases a with
    | setLine name level => exact .inr ⟨name, level, rfl, rfl⟩
    | write | read | delay => exact .inl (emit_lines ..)
  | evalCheck c next => rw [evalCheck_frame]; exact .inl rfl
  | sampleFault | sampleGoto => exact .inl (emitReadBusy_lines s)
  | sampleNextRow => rw [nextRow_frame]; exact .inl (emitReadBusy_lines s)
  | passEnd => rw [endPass_frame]; exact .inl rfl
  | stay | goto | complete | startPowerUp | startPowerDown | endPowerUp | endPowerDown | latch | stageStart | fetch
  | encode | waitStart => exact .inl rfl

/-! ### The obligations -/

/-- Settles O20: of the moves of the engine only the completion writes RESULT or BUSY, and no HOST turn but a CMD write
touches them; the completion's RESULT is read back field by field. -/
theorem completionStep : Obligations.CompletionStep := by
  refine ⟨fun s t u => takeTurn_report, fun s t u => takeTurn_raises_busy, ?_⟩
  intro i s kind check stage line hi hb hpc
  exact ⟨complete kind check stage line s, exec_complete hi hb hpc, rfl, resultValid_word .., resultOp_word ..,
    resultLine_word .., resultStage_word .., resultCheck_word .., resultKind_word .., resultWord_reserved ..⟩

/-- Settles O54, by cases on the turn: only an ENGINE turn and the reset move a line. -/
theorem linesMoveBySetLine : Obligations.LinesMoveBySetLine := by
  intro s t u h hne
  cases u with
  | host => exact absurd (congrArg EngineSide.lines (hostTurn_engineSide h)) hne
  | engine => exact .inr ⟨rfl, (engineTurn_move h).lines.resolve_left hne⟩
  | clock => cases h; exact absurd rfl hne
  | rst => cases h; exact .inl ⟨rfl, rfl, rfl⟩
  | short => cases shortTurn_eq h; exact absurd rfl hne

/-- Settles O55, by cases on the turn: the parameters and NOW stand among what the engine and the HOST leave. -/
theorem parametersAndClock : Obligations.ParametersAndClock := by
  intro s t u h
  cases u with
  | host =>
    have hkeep := hostTurn_engineSide h
    exact ⟨congrArg EngineSide.par hkeep, nofun, fun _ => congrArg EngineSide.now hkeep⟩
  | engine =>
    have hkeep := (engineTurn_move h).surroundings
    exact ⟨congrArg Surroundings.par hkeep, nofun, fun _ => congrArg Surroundings.now hkeep⟩
  | clock => cases h; exact ⟨rfl, fun _ => rfl, fun hne => absurd rfl hne⟩
  | rst => cases h; exact ⟨rfl, nofun, fun _ => rfl⟩
  | short => cases shortTurn_eq h; exact ⟨rfl, nofun, fun _ => rfl⟩

end Sys2Proof.Machine

end

section
/-! O59: what the steps of a power command, of an update and of a reserved opcode leave. -/

namespace Sys2Proof.Machine

/-! ### What a power command leaves (R49, R71) -/

/-- What only an update's steps write: its context, what it shows of it, the line and the row with its reads, and the
panel's busy levels. -/
structure UpdateSide where
  upd : UpdateCtx
  lastTemp : Word
  stageMs : Word
  lineBuf : Vector Byte 111
  rowBuf : Vector Byte 33
  fbReads : List Host.Cell
  busyQueue : List Bool

def State.updateSide (s : State) : UpdateSide :=
  ⟨s.upd, s.lastTemp, s.stageMs, s.lineBuf, s.rowBuf, s.fbReads, s.busyQueue⟩

theorem emit_updateSide (a : Act) (s : State) : (emit a s).updateSide = s.updateSide := by
  simp [State.updateSide]

theorem endStep_updateSide (st : SeqStep) (next : Pc) (s : State) : (endStep st next s).updateSide = s.updateSide := by
  rcases endStep_cases st next s with e | ⟨n, -, -, e⟩ | ⟨c, -, e⟩ <;> rw [e]
  · rfl
  · rw [evalCheck_frame]
    rfl

theorem runList_updateSide {done : State → State} {s : State} (hd : (done s).updateSide = s.updateSide)
    (l : List SeqStep) (at_ : Nat → Nat → Pc) (i ev : Nat) : (runList l at_ done i ev s).updateSide = s.updateSide := by
  rcases runList_cases l at_ done i ev s with ⟨st, a, -, -, e⟩ | ⟨st, -, -, e⟩ | ⟨-, e⟩ <;> rw [e]
  · exact emit_updateSide a s
  · exact endStep_updateSide ..
  · exact hd

theorem dispatchPowerUp_updateSide (s : State) : (dispatchPowerUp s).updateSide = s.updateSide := by
  unfold dispatchPowerUp
  split <;> rfl

theorem dispatchPowerDown_updateSide (s : State) : (dispatchPowerDown s).updateSide = s.updateSide := by
  unfold dispatchPowerDown
  split <;> rfl

theorem commonStep_eq {s t : State} (h : commonStep s = .next t) :
    ∃ kind check stage line, t = complete kind check stage line s := by
  unfold commonStep at h
  split at h <;> cases h
  exact ⟨_, _, _, _, rfl⟩

theorem reservedStep_eq {s t : State} (h : reservedStep s = .next t) :
    ∃ kind check stage line, t = complete kind check stage line s := by
  unfold reservedStep at h
  split at h
  · cases h
    exact ⟨_, _, _, _, rfl⟩
  · exact commonStep_eq h

theorem powerUpStep_updateSide {s t : State} (h : powerUpStep s = .next t) : t.updateSide = s.updateSide := by
  unfold powerUpStep at h
  split at h
  · cases h; exact dispatchPowerUp_updateSide s
  · cases h; exact runList_updateSide rfl ..
  · cases h; rfl
  · cases h; exact runList_updateSide rfl ..
  · obtain ⟨_, _, _, _, rfl⟩ := commonStep_eq h
    rfl

theorem powerDownStep_updateSide {s t : State} (h : powerDownStep s = .next t) : t.updateSide = s.updateSide := by
  unfold powerDownStep at h
  split at h
  · cases h; exact dispatchPowerDown_updateSide s
  · cases h; exact runList_updateSide rfl ..
  · obtain ⟨_, _, _, _, rfl⟩ := commonStep_eq h
    rfl

/-! ### What an update leaves (R27, R35, R42) -/

/-- From s to t the record and every line but CS stand, and the session stands or becomes Faulted (R145). -/
structure LeavesPanel (s t : State) : Prop where
  selfTest : t.selfTest = s.selfTest
  stRaw : t.stRaw = s.stRaw
  lines : t.lines = { s.lines with cs := t.lines.cs }
  session : t.session = s.session ∨ t.session = .faulted

theorem leavesPanel_goto (s : State) (p : Pc) : LeavesPanel s (s.goto p) := ⟨rfl, rfl, rfl, .inl rfl⟩

theorem leavesPanel_complete (kind : Kind) (check : BitVec 2) (stage : BitVec 4) (line : BitVec 8) (s : State) :
    LeavesPanel s (complete kind check stage line s) := ⟨rfl, rfl, rfl, .inl rfl⟩

/-- A state that leaves the panel after one busy sample leaves it from before the sample. -/
theorem LeavesPanel.of_sample {s t : State} (h : LeavesPanel (emitReadBusy s) t) : LeavesPanel s t := by
  rw [emitReadBusy_frame] at h
  exact ⟨h.selfTest, h.stRaw, h.lines, h.session⟩

theorem runFrame_leavesPanel {acts : List Act} (hacts : ∀ a ∈ acts, a.writesOrMovesCs) {done : State → State}
    {s : State} (hd : LeavesPanel s (done s)) (ev : Nat) (at_ : Nat → Pc) :
    LeavesPanel s (runFrame acts ev at_ done s) := by
  rcases runFrame_cases acts ev at_ done s with ⟨a, ha, e⟩ | ⟨-, e⟩ <;> rw [e]
  · rw [(emit_goto_writesOrMovesCs (hacts a (List.mem_of_getElem? ha)) s _).1]
    exact ⟨rfl, rfl, rfl, .inl rfl⟩
  · exact hd

theorem busyWait_leavesPanel {ret : State → State} (hr : ∀ u, LeavesPanel u (ret u)) (stage : BitVec 4)
    (line : BitVec 8) (at_ : WaitPhase → Pc) (w : WaitPhase) (s : State) :
    LeavesPanel s (busyWait stage line at_ ret w s) := by
  rcases busyWait_cases stage line at_ ret w s with
    ⟨-, e⟩ | ⟨-, -, e⟩ | ⟨-, -, -, e⟩ | ⟨-, -, -, e⟩ | ⟨-, e⟩ | ⟨-, -, e⟩ | ⟨-, -, e⟩ <;> rw [e]
  · exact ⟨rfl, rfl, rfl, .inl rfl⟩
  · exact (hr _).of_sample
  · exact LeavesPanel.of_sample ⟨rfl, rfl, rfl, .inr rfl⟩
  · exact (leavesPanel_goto ..).of_sample
  · exact ⟨rfl, rfl, rfl, .inl rfl⟩
  · exact ⟨rfl, rfl, rfl, .inl rfl⟩
  · exact leavesPanel_goto ..

theorem nextRow_leavesPanel (s : State) : LeavesPanel s (nextRow s) := by
  rw [nextRow_frame]
  exact ⟨rfl, rfl, rfl, .inl rfl⟩

theorem endPass_leavesPanel (s : State) : LeavesPanel s (endPass s) := by
  rw [endPass_frame]
  exact ⟨rfl, rfl, rfl, .inl rfl⟩

theorem validateUpdate_leavesPanel (s : State) : LeavesPanel s (validateUpdate s) := by
  unfold validateUpdate
  split
  · exact leavesPanel_complete ..
  · split
    · exact leavesPanel_complete ..
    · exact leavesPanel_goto ..

theorem endHandshake_leavesPanel (s : State) : LeavesPanel s (endHandshake s) := by
  unfold endHandshake
  split <;> exact leavesPanel_goto ..

theorem updateStep_leavesPanel {s t : State} (h : updateStep s = .next t) : LeavesPanel s t := by
  unfold updateStep at h
  cases hpc : s.pc <;> rw [hpc] at h
  case dispatch => cases h; exact validateUpdate_leavesPanel s
  case latch | stageStart | fetch => cases h; exact ⟨rfl, rfl, rfl, .inl rfl⟩
  case row | encode =>
    simp only at h
    split at h <;> cases h
    exact ⟨rfl, rfl, rfl, .inl rfl⟩
  case line ev => cases h; exact runFrame_leavesPanel (lineTx_writesOrMovesCs _ _) (leavesPanel_goto ..) ..
  case wait w => cases h; exact busyWait_leavesPanel nextRow_leavesPanel ..
  case passEnd => cases h; exact endPass_leavesPanel s
  case handshake ev =>
    cases h
    exact runFrame_leavesPanel (regWrite_writesOrMovesCs _ _ _) (endHandshake_leavesPanel s) ..
  case settle ev => cases h; exact runFrame_leavesPanel (lineTx_writesOrMovesCs _ _) (leavesPanel_goto ..) ..
  case settleWait w => cases h; exact busyWait_leavesPanel (fun u => leavesPanel_goto u _) ..
  case idle | pd | pu | puStart | complete =>
    obtain ⟨_, _, _, _, rfl⟩ := commonStep_eq h
    exact leavesPanel_complete ..

/-! ### By the command (R81) -/

theorem exec_running_updateSide {i : Instr} {s t : State} (hb : s.busy = true) (h : exec i s = .next t)
    (hi : ∀ a b, i ≠ .updateFull a b ∧ i ≠ .updatePartial a b) : t.updateSide = s.updateSide := by
  cases i with
  | nop x => cases h; rfl
  | powerUp x => exact powerUpStep_updateSide (exec_powerUp_running hb x ▸ h)
  | powerDown x => exact powerDownStep_updateSide (exec_powerDown_running hb x ▸ h)
  | updateFull temp r => exact absurd rfl (hi temp r).1
  | updatePartial temp r => exact absurd rfl (hi temp r).2
  | reserved4to7 op x =>
    obtain ⟨_, _, _, _, rfl⟩ := reservedStep_eq (exec_reserved4to7_running hb op x ▸ h)
    rfl
  | reserved8toF op x =>
    obtain ⟨_, _, _, _, rfl⟩ := reservedStep_eq (exec_reserved8toF_running hb op x ▸ h)
    rfl

theorem exec_running_leavesPanel {i : Instr} {s t : State} (hb : s.busy = true) (h : exec i s = .next t)
    (hi : ∀ x, i ≠ .powerUp x ∧ i ≠ .powerDown x) : LeavesPanel s t := by
  cases i with
  | nop x => cases h; exact ⟨rfl, rfl, rfl, .inl rfl⟩
  | powerUp x => exact absurd rfl (hi x).1
  | powerDown x => exact absurd rfl (hi x).2
  | updateFull temp r => exact updateStep_leavesPanel (exec_updateFull_running hb temp r ▸ h)
  | updatePartial temp r => exact updateStep_leavesPanel (exec_updatePartial_running hb temp r ▸ h)
  | reserved4to7 op x =>
    obtain ⟨_, _, _, _, rfl⟩ := reservedStep_eq (exec_reserved4to7_running hb op x ▸ h)
    exact leavesPanel_complete ..
  | reserved8toF op x =>
    obtain ⟨_, _, _, _, rfl⟩ := reservedStep_eq (exec_reserved8toF_running hb op x ▸ h)
    exact leavesPanel_complete ..

/-! ### The obligation -/

/-- Settles O59: no move of the engine writes its surroundings, and each unit leaves the other's side. -/
theorem commandFrames : Obligations.CommandFrames := by
  intro i s t _ hb h
  refine ⟨?_, fun hi => ?_, fun hi => ?_⟩
  · obtain ⟨-, hbase, hlen, htmo, hover, hcur, hnow, hmem, hhost, hlog, -⟩ :=
      Surroundings.mk.injEq .. ▸ (exec_running_move hb h).surroundings
    exact ⟨hbase, hlen, htmo, hover, hcur, hmem, fun a => by rw [hmem], hnow, hhost, hlog⟩
  · simpa [State.updateSide] using exec_running_updateSide hb h hi
  · have hleaves := exec_running_leavesPanel hb h hi
    exact ⟨hleaves.selfTest, hleaves.stRaw, hleaves.lines⟩

end Sys2Proof.Machine

end

section
/-! O52, O57, O58: the session table, the writers of the self-test record, and what an idle engine shows. -/

namespace Sys2Proof.Machine

/-! ### The session along a turn (R36, R149) -/

/-- Along a list the session stands, a failed check makes it Faulted, or the list is over. -/
theorem runList_session (l : List SeqStep) (at_ : Nat → Nat → Pc) (done : State → State) (i ev : Nat) (s : State) :
    (runList l at_ done i ev s).session = s.session ∨
      ((∃ c, l[i - 1]? = some (.check c)) ∧ (runList l at_ done i ev s).session = .faulted) ∨
      runList l at_ done i ev s = done s := by
  rcases runList_cases l at_ done i ev s with ⟨st, a, -, -, e⟩ | ⟨st, hst, -, e⟩ | ⟨-, e⟩
  · exact .inl (e ▸ emit_session a s)
  · rcases endStep_cases st (at_ (i + 1) 0) s with e' | ⟨n, -, -, e'⟩ | ⟨c, rfl, e'⟩ <;> rw [e, e']
    · exact .inl rfl
    · exact .inl rfl
    · rcases evalCheck_cases c (at_ (i + 1) 0) s with ⟨-, e''⟩ | ⟨-, e''⟩ <;> rw [e'']
      · exact .inl rfl
      · exact .inr (.inl ⟨⟨c, hst⟩, rfl⟩)
  · exact .inr (.inr e)

/-- A change of the session by an ENGINE turn is a row of the session table, under its command (R36). -/
def SessionRow (op : BitVec 4) (before after : Session) : Prop :=
  (before = .off ∧ after = .poweringUp ∧ op = 1) ∨
    (before = .poweringUp ∧ after = .ready ∧ op = 1) ∨
    (before = .poweringUp ∧ after = .faulted ∧ op = 1) ∨
    (before = .faulted ∧ after = .poweringDown ∧ (op = 1 ∨ op = 2)) ∨
    (before = .ready ∧ after = .poweringDown ∧ op = 2) ∨
    (before = .poweringDown ∧ after = .off ∧ (op = 1 ∨ op = 2)) ∨
    (before = .ready ∧ after = .faulted ∧ op = 3)

theorem Advance.session {s t : State} (h : Advance s t) :
    t.session = s.session ∨ SessionRow s.cur.op s.session t.session := by
  cases h with
  | reported | refused | validated => exact .inl rfl
  | startPowerUp hop hs hpc => exact .inr (.inl ⟨hs, rfl, hop⟩)
  | startPowerDown hpc hs =>
    rcases hs with ⟨hop, hs⟩ | ⟨hop, hs | hs⟩
    · exact .inr (.inr (.inr (.inr (.inl ⟨hs, rfl, .inl hop⟩))))
    · exact .inr (.inr (.inr (.inr (.inr (.inl ⟨hs, rfl, hop⟩)))))
    · exact .inr (.inr (.inr (.inr (.inl ⟨hs, rfl, .inr hop⟩))))
  | puList i ev hop hs hi hpc =>
    rcases runList_session (Machine.puList s.par) .pu endPowerUp i ev s with e | ⟨-, e⟩ | e
    · exact .inl e
    · exact .inr (.inr (.inr (.inl ⟨hs, e, hop⟩)))
    · rw [e]
      exact .inr (.inr (.inl ⟨hs, rfl, hop⟩))
  | pdList next i ev hnext hs hi hpc =>
    rcases runList_session (Machine.pdList s.par) .pd (endPowerDown next) i ev s with e | ⟨⟨c, hc⟩, -⟩ | e
    · exact .inl e
    · exact absurd hc (pdList_no_check hi c)
    · rw [e]
      exact .inr (.inr (.inr (.inr (.inr (.inr (.inl ⟨hs, rfl, hnext.imp And.left And.left⟩))))))
  | update hop hs hup ht =>
    exact (updateStep_leavesPanel ht).session.imp_right fun e =>
      .inr (.inr (.inr (.inr (.inr (.inr ⟨hs, e, hop⟩)))))

/-- From a state of the invariant an ENGINE turn writes the record or ST_RAW only under a power command (R27, R35). -/
theorem Advance.record {s t : State} (h : Advance s t) :
    (t.selfTest = s.selfTest ∧ t.stRaw = s.stRaw) ∨ s.cur.op = 1 ∨ s.cur.op = 2 := by
  cases h with
  | reported | refused | validated => exact .inl ⟨rfl, rfl⟩
  | startPowerUp hop => exact .inr (.inl hop)
  | startPowerDown => exact .inl ⟨rfl, rfl⟩
  | puList i ev hop => exact .inr (.inl hop)
  | pdList next i ev hnext => exact .inr (hnext.imp And.left And.left)
  | update hop hs hup ht =>
    have hleaves := updateStep_leavesPanel ht
    exact .inl ⟨hleaves.selfTest, hleaves.stRaw⟩

/-- An ENGINE turn of a state of the invariant is the turn of its command in flight, or changes nothing. -/
theorem Inv.engineTurn_cases {s t : State} (h : Inv s) (ht : Machine.engineTurn s = .next t) : t = s ∨ Advance s t := by
  cases hb : s.busy with
  | false => exact .inl (Host.Outcome.next.inj ((engineTurn_idle hb).symm.trans ht)).symm
  | true => exact .inr (h.advance hb ht)

/-! ### The obligations -/

/-- Settles O52, by cases on the turn; the ENGINE's by its position. -/
theorem sessionTable : Obligations.SessionTable := by
  intro s t u h ht hne
  cases u with
  | host => exact absurd (congrArg EngineSide.session (hostTurn_engineSide ht)) hne
  | engine =>
    rcases h.engineTurn_cases ht with rfl | hadvance
    · exact absurd rfl hne
    · exact .inr ⟨rfl, hadvance.session.resolve_left hne⟩
  | clock => cases ht; exact absurd rfl hne
  | rst => cases ht; exact .inl ⟨rfl, rfl⟩
  | short => cases shortTurn_eq ht; exact absurd rfl hne

/-- Settles O57, by cases on the turn; the ENGINE's by its position. -/
theorem recordWriters : Obligations.RecordWriters := by
  intro s t u h ht hne
  have hchanged : ¬ (t.selfTest = s.selfTest ∧ t.stRaw = s.stRaw) := fun ⟨hrecord, hraw⟩ =>
    hne.elim (absurd hrecord) (absurd hraw)
  cases u with
  | host =>
    have hkeep := hostTurn_engineSide ht
    exact absurd ⟨congrArg EngineSide.selfTest hkeep, congrArg EngineSide.stRaw hkeep⟩ hchanged
  | engine =>
    rcases h.engineTurn_cases ht with rfl | hadvance
    · exact absurd ⟨rfl, rfl⟩ hchanged
    · exact .inr ⟨rfl, hadvance.record.resolve_left hchanged⟩
  | clock => cases ht; exact absurd ⟨rfl, rfl⟩ hchanged
  | rst => exact .inl rfl
  | short => cases shortTurn_eq ht; exact absurd ⟨rfl, rfl⟩ hchanged

/-- Settles O58: at IDLE the session is settled, and the invariant gives its lines and its record. -/
theorem idleEngineShows : Obligations.IdleEngineShows := by
  intro s h hb
  have hpc : s.pc = .idle := h.busyIff.1 hb
  have hout : outsideLists s.pc = true := hpc ▸ rfl
  have hlines := h.lines_between hout (by rw [doneActs, hpc])
  have hrecord := (sessionRecordInv_outsideLists hout).1 h.sessionRecord
  have hsettled : s.session.settled = true := by simpa [PositionInv, positionFits, hpc] using h.position
  refine ⟨(settled_iff _).1 hsettled, by rw [hlines], fun hs => ⟨?_, ?_⟩, fun hs => ?_⟩ <;> rw [hs] at hrecord
  · rw [hlines, hs]
    rfl
  · rw [statusWord, hb, hs, eq_of_beq hrecord]
    cases s.overrun <;> decide
  · rw [statusWord, hb, hs, eq_of_beq hrecord]
    cases s.overrun <;> decide

end Sys2Proof.Machine

end

section
/-! O8: the ENGINE's scheduled turn, and the word CUR stands for. -/

namespace Sys2Proof.Machine

open BitVec

/-- The word CUR stands for has the MODE of CUR. -/
theorem modeField_curWord (c : Cur) : modeField c.word = c.mode := modeField_append c.temp 0 c.mode c.op

/-- CUR holds the issued word with bits [15:5] cleared: the mask keeps TEMP, MODE and OP (R38, R80). -/
theorem curOfWord_word (w a b c : Word) : (curOfWord w a b c).word = w &&& 0xFFFF001F := by
  have hmask : (0xFFFF001F : Word) = allOnes 16 ++ 0#11 ++ allOnes 1 ++ allOnes 4 := by decide
  calc (curOfWord w a b c).word
      = (tempField w ++ reservedField w ++ modeField w ++ opField w : Word) &&&
          (allOnes 16 ++ 0#11 ++ allOnes 1 ++ allOnes 4) := by
        simp only [and_append, and_allOnes, and_zero]
        rfl
    _ = w &&& 0xFFFF001F := by rw [word_of_mode_op rfl rfl, hmask]

/-- The command of CUR is of the issued word's row: it has the word's OP and MODE (R81). -/
theorem curOfWord_mnemonic (w a b c : Word) :
    (curOfWord w a b c).instr.mnemonic = (decodeWord w).mnemonic :=
  mnemonic_decodeWord_congr (opField_curWord _) (modeField_curWord _)

/-- Settles O8: the scheduled turn is the ENGINE's, and the word CUR stands for is read bit by bit. -/
theorem stepRunsCommandInFlight : Obligations.StepRunsCommandInFlight := by
  refine ⟨fun s rest hp ht hb => ?_, fun w a b c => ⟨curOfWord_word w a b c, curOfWord_mnemonic w a b c⟩⟩
  rw [step_scheduled hp ht]
  exact if_pos hb

end Sys2Proof.Machine

end

section
/-! O11 to O13, O15: the accesses of the HOST to the window, the fields of STATUS, and the host assembly. -/

namespace Sys2Proof.Machine

open BitVec

/-! ### The fields of STATUS (R24) -/

theorem statusWord_fields (s : State) :
    (statusWord s).extractLsb' 0 3 = s.session.code ∧ (statusWord s).getLsbD 3 = s.busy ∧
    (statusWord s).getLsbD 4 = s.overrun ∧ (statusWord s).extractLsb' 5 3 = 0 ∧
    (statusWord s).getLsbD 8 = s.selfTest.valid ∧ (statusWord s).getLsbD 9 = s.selfTest.driverIdValid ∧
    (statusWord s).getLsbD 10 = s.selfTest.breakageDetected ∧ (statusWord s).getLsbD 11 = s.selfTest.dcLevelOk ∧
    (statusWord s).getLsbD 12 = s.selfTest.evalDriverId ∧ (statusWord s).getLsbD 13 = s.selfTest.evalBreakage ∧
    (statusWord s).getLsbD 14 = s.selfTest.evalDc ∧ (statusWord s).extractLsb' 15 17 = 0 := by
  unfold statusWord
  refine ⟨extractLsb'_append_eq_right .., ?_, ?_, ?_, ?_, ?_, ?_, ?_, ?_, ?_, ?_, ?_⟩
  case refine_3 =>
    iterate 3 rw [extractLsb'_append_eq_of_le (by decide)]
    exact extractLsb'_append_eq_right ..
  case refine_11 =>
    iterate 11 rw [extractLsb'_append_eq_of_le (by decide)]
    rfl
  all_goals
    simp only [getLsbD_append]
    simp

/-! ### Reads and writes of the window (R22, R55) -/

theorem hostTurn_rd_window {s : State} {off : Nat} {ops : List HostOp} (hoff : off % 4 = 0 ∧ off < 64)
    (h : s.host = .rd off 4 :: ops) : hostTurn s = .next (noteHostRead off (fun _ => true) { s with host := ops }) := by
  rw [hostTurn_rd h, if_pos ((accessOk_iff off 4).2 ⟨rfl, hoff⟩)]

theorem hostTurn_expect_window {s : State} {off : Nat} {mask v : Word} {ops : List HostOp}
    (hoff : off % 4 = 0 ∧ off < 64) (h : s.host = .expect off mask v :: ops) :
    hostTurn s = .next (noteHostRead off (fun w => w &&& mask == v) { s with host := ops }) := by
  rw [hostTurn_expect h, if_pos ((accessOk_iff off 4).2 ⟨rfl, hoff⟩)]

/-- What the HOST reads does not depend on its program (R22). -/
theorem hostRead_host (off : Nat) (s : State) (ops : List HostOp) :
    hostRead off { s with host := ops } = hostRead off s := by
  unfold hostRead
  cases regAt off with
  | none => rfl
  | some r => cases r <;> rfl

/-- The offsets from 0x24 on are no register's (R21). -/
theorem regAt_reserved {off : Nat} (h : 0x24 ≤ off) : regAt off = none := by
  cases hr : regAt off with
  | none => rfl
  | some r =>
    obtain rfl := offset_of_regAt hr
    cases r <;> simp [Reg.offset] at h

theorem hostAccess_reserved {off : Nat} (h : 0x24 ≤ off) (v : Word) (s : State) :
    hostRead off s = 0 ∧ hostWrite off v s = .next s := by
  simp [hostRead, hostWrite, regAt_reserved h]

/-- A write of STATUS clears OVERRUN by bit 4 and ignores every other bit (R24). -/
theorem hostWrite_status (v : Word) (s : State) :
    hostWrite 0x04 v s = .next { s with overrun := if v.getLsbD 4 then false else s.overrun } := by
  have hover : (s.overrun && !v.getLsbD 4) = if v.getLsbD 4 then false else s.overrun := by
    cases v.getLsbD 4 <;> simp
  rw [← hover]
  rfl

/-! ### The words of the command statements (R85) -/

theorem tempOperand_in {t : Int} (h : -32768 ≤ t ∧ t ≤ 32767) : tempOperand t = some (BitVec.ofInt 16 t) :=
  if_pos h

theorem tempOperand_out {t : Int} (h : t < -32768 ∨ 32767 < t) : tempOperand t = none :=
  if_neg (by omega)

theorem encode_updateFull_zero (temp : BitVec 16) : encode (.updateFull temp 0) = temp ++ (0x0003 : BitVec 16) := by
  rw [encode, append_assoc, append_assoc]
  rfl

theorem encode_updatePartial_zero (temp : BitVec 16) :
    encode (.updatePartial temp 0) = temp ++ (0x0013 : BitVec 16) := by
  rw [encode, append_assoc, append_assoc]
  rfl

/-! ### The obligations -/

/-- Settles O11. -/
theorem hostReadChangesNothing : Obligations.HostReadChangesNothing := by
  intro s off ops h4 h64 h
  rw [hostTurn_rd_window ⟨h4, h64⟩ h, noteHostRead, hostRead_host]

/-- Settles O12: an aligned write is let through, and each offset's register decides what it does. -/
theorem hostAccessRules : Obligations.HostAccessRules := by
  refine ⟨fun s off v ops h4 h64 h => ?_, fun s v => ?_⟩
  · rw [takeTurn, hostTurn_wr h, if_pos ((accessOk_iff off 4).2 ⟨rfl, h4, h64⟩)]
  · refine ⟨rfl, rfl, fun off hoff => hostAccess_reserved hoff v s, ?_, rfl, rfl, rfl, rfl, rfl, rfl, rfl, rfl, rfl,
      rfl⟩
    simp only [List.forall_mem_cons]
    exact ⟨rfl, rfl, rfl, rfl, nofun⟩

/-- Settles O13: STATUS is read back field by field. -/
theorem statusRegister : Obligations.StatusRegister := by
  intro s v
  obtain ⟨hcode, hfields⟩ := statusWord_fields s
  obtain ⟨h3, h4, h5, h8, h9, h10, h11, h12, h13, h14, h15⟩ := hfields
  refine ⟨rfl, hcode.trans ?_, h3, h4, h5, h8, h9, h10, h11, h12, h13, h14, h15, hostWrite_status v s,
    (registersAtReset_hardReset s).status, (registersAtReset_resetWith s.par).status⟩
  cases s.session <;> rfl

/-- Settles O15: the statements by their words and their register, and the two HOST turns. -/
theorem hostAssembly : Obligations.HostAssembly := by
  refine ⟨rfl, rfl, rfl, fun w => rfl, fun t hlo hhi => ?_, fun t ht => ?_, fun base => rfl, rfl,
    ⟨rfl, rfl, rfl, rfl, rfl, rfl, rfl, rfl, rfl⟩, fun r m v => ⟨rfl, rfl, rfl⟩, fun off m v h4 h64 => ?_,
    fun off m v hbad => ?_, fun s ops h => ?_, fun s off mask v ops h h4 h64 => ?_⟩
  · simp only [assemble, tempOperand_in ⟨hlo, hhi⟩, Option.map_some, encode_updateFull_zero, encode_updatePartial_zero]
    exact ⟨rfl, rfl⟩
  · simp [assemble, tempOperand_out ht]
  · simp [assemble, RegRef.resolve_offset, h4, h64]
  · simp [assemble, RegRef.resolve_offset, hbad]
  · rw [hostTurn_waitIdle h]
    split_ifs
    · rw [← h]
      rfl
    · rfl
  · rw [hostTurn_expect_window ⟨h4, h64⟩ h, noteHostRead, hostRead_host]
    rfl

end Sys2Proof.Machine

end
